-- ==== Sys2Proof/Word.lean ====
section
/-! DEFINITION. The words of the FRF7-BKU and the 4×4 block shape (spec/00_scope.md R7, R11, R13). -/

namespace Sys2Proof

/-- A register-port value or a byte address: 32 bits (R7 `XLEN`). -/
abbrev Word := BitVec 32

/-- A 16-bit register, accumulator lane or table entry. -/
abbrev Half := BitVec 16

/-- One sample: 8 bits, unsigned (R7 `SAMPLE_BITS`). -/
abbrev Byte := BitVec 8

/-- Four like things in order 0..3: the samples of a row, or the rows of a block (R7 `B` = 4). -/
structure Quad (α : Type) where
  q0 : α
  q1 : α
  q2 : α
  q3 : α
  deriving DecidableEq, Repr

/-- A 4×4 block `b[r][c]`: four rows of four (R13). -/
abbrev Block (α : Type) := Quad (Quad α)

/-- The element of index `i`. -/
def Quad.get {α : Type} (q : Quad α) (i : Fin 4) : α :=
  match i with
  | 0 => q.q0
  | 1 => q.q1
  | 2 => q.q2
  | 3 => q.q3

/-- The quad with the element of index `i` replaced. -/
def Quad.set {α : Type} (q : Quad α) (i : Fin 4) (v : α) : Quad α :=
  match i with
  | 0 => { q with q0 := v }
  | 1 => { q with q1 := v }
  | 2 => { q with q2 := v }
  | 3 => { q with q3 := v }

/-- Four copies. -/
def Quad.fill {α : Type} (v : α) : Quad α := ⟨v, v, v, v⟩

/-- Element by element, from two quads. -/
def Quad.zip {α β γ : Type} (f : α → β → γ) (a : Quad α) (b : Quad β) : Quad γ :=
  ⟨f a.q0 b.q0, f a.q1 b.q1, f a.q2 b.q2, f a.q3 b.q3⟩

/-- Whether `p` holds of all four. -/
def Quad.all {α : Type} (p : α → Bool) (q : Quad α) : Bool :=
  p q.q0 && p q.q1 && p q.q2 && p q.q3

/-- The sum of four numbers. -/
def Quad.sum (q : Quad Nat) : Nat := q.q0 + q.q1 + q.q2 + q.q3

end Sys2Proof
end

