-- ==== Sys2Proof/Syntax.lean ====
section
/-! DEFINITION. The syntax of the thirty operations (spec/30_encoding.md R102 to R106, R111): one
constructor of `Instr` for each row of spec/opcode_table.json. -/

namespace Sys2Proof

/-- A sample plane that a command field `rp` or `cp` can name (R105, 20_memory.md R71). -/
inductive Plane where
  | src
  | prev
  | next
  | dst
  deriving DecidableEq, Repr

/-- An anchor that a command field `ra` or `ca` can name: `S`, the search anchor, or `B`, the base
anchor (R105). -/
inductive Anchor where
  | s
  | b
  deriving DecidableEq, Repr

/-- One of the three tile walks (45_scan_driver.md R200). -/
inductive Geometry where
  | p1
  | p2a
  | p2b
  deriving DecidableEq, Repr

/-- The operations. Offsets are signed sample counts, `row` a lane row, `r` a radius, `alpha` the
ordinal of a blended contribution, `k` a sub-lattice index. Which values a command word can carry is
`Instr.wf` (R108). -/
inductive Instr where
  | nop
  | rbuild
  | sad (rp : Plane) (ra : Anchor) (cp : Plane) (ca : Anchor) (dx dy : Int)
  | cmp
  | ssadd
  | bsad (cp : Plane)
  | devl
  | dmin
  | thresh
  | clra
  | accrow (cp : Plane) (ca : Anchor) (dx dy : Int) (row : Fin 4)
  | accblk (cp : Plane) (ca : Anchor) (dx dy : Int)
  | store
  | blend
  | diff
  | pack (alpha : Nat)
  | filt (r : Nat)
  | afilt (r : Nat)
  | ofilt (r : Nat) (cp : Plane)
  | dfilt
  | agstart (g : Geometry) (k : Nat)
  | agnext
  | agclamp (g : Geometry) (k : Nat)
  | tile1
  | tile2a
  | tile2b
  | pass1
  | pass2a
  | pass2b
  | runplane
  deriving DecidableEq, Repr

end Sys2Proof
end

