-- ==== Sys2Proof/WellFormed.lean ====
section
/-! DEFINITION. The operand values that a command word can carry (spec/30_encoding.md R104, R108). -/

namespace Sys2Proof

/-- A candidate offset: −3..+3 (R104). -/
def offsetOk (d : Int) : Bool := decide (-3 ≤ d) && decide (d ≤ 3)

/-- Geometry and sub-lattice index: `k` is 1..8 with `P2B` and 0 with `P1`, `P2A` (R108). -/
def walkOk (g : Geometry) (k : Nat) : Bool :=
  match g with
  | .p1 => k == 0
  | .p2a => k == 0
  | .p2b => decide (1 ≤ k) && decide (k ≤ 8)

/-- The legal field values by operation: the table of R108. -/
def Instr.wf : Instr → Bool
  | .sad _ _ _ _ dx dy => offsetOk dx && offsetOk dy
  | .bsad cp => cp == .prev || cp == .next
  | .accrow _ _ dx dy _ => offsetOk dx && offsetOk dy
  | .accblk _ _ dx dy => offsetOk dx && offsetOk dy
  | .pack alpha => decide (1 ≤ alpha) && decide (alpha ≤ 255)
  | .filt r => r == 0 || r == 2 || r == 3
  | .afilt r => r == 2 || r == 3
  | .ofilt r cp => (r == 2 || r == 3) && !(cp == .dst)
  | .agstart g k => walkOk g k
  | .agclamp g k => walkOk g k
  | .nop | .rbuild | .cmp | .ssadd | .devl | .dmin | .thresh | .clra | .store | .blend | .diff
  | .dfilt | .agnext | .tile1 | .tile2a | .tile2b | .pass1 | .pass2a | .pass2b | .runplane => true

end Sys2Proof
end

