-- ==== Sys2Proof/Decode.lean ====
section
/-! DEFINITION. The command word: fields, formats, opcode map, decoder and encoder
(spec/30_encoding.md R100 to R110). -/

namespace Sys2Proof

/-- Why a word is no command: the three tests of R101, in their order. -/
inductive DecodeError where
  /-- `op` is not in the opcode map (R107). -/
  | unknownOpcode
  /-- A bit that the format does not use is 1 (R101, R103). -/
  | unusedBitSet
  /-- A used field holds a value that R108 does not allow. -/
  | reservedField
  deriving DecidableEq, Repr

/-- The formats of R103. -/
inductive Format where
  | z | s | p | ar | ab | i | k | kp | g
  deriving DecidableEq, Repr

/-- The bits that must equal the match value: `op` and every unused bit (R103). -/
def Format.mask : Format → Word
  | .z => 0xFFFFFFFF
  | .s => 0xFF0003FF
  | .p => 0xFFE7FFFF
  | .ar => 0xFFE000FF
  | .ab => 0xFFE003FF
  | .i => 0xFFFFFF00
  | .k => 0xFFFFFCFF
  | .kp => 0xFFE7FCFF
  | .g => 0xFFFFFCF0

/-- The opcode map of R106: the format of each opcode; none for a reserved opcode (R107). -/
def opFormat (op : Nat) : Option Format :=
  match op with
  | 0x00 | 0x01 => some .z
  | 0x10 => some .s
  | 0x11 | 0x12 => some .z
  | 0x13 => some .p
  | 0x14 | 0x15 | 0x16 => some .z
  | 0x20 => some .z
  | 0x21 => some .ar
  | 0x22 => some .ab
  | 0x30 | 0x31 | 0x32 => some .z
  | 0x33 => some .i
  | 0x40 | 0x41 => some .k
  | 0x42 => some .kp
  | 0x43 => some .z
  | 0x50 => some .g
  | 0x51 => some .z
  | 0x52 => some .g
  | 0x58 | 0x59 | 0x5A => some .z
  | 0x5C | 0x5D | 0x5E | 0x5F => some .z
  | _ => none

/-- `op` = bits 31:24 (R102). -/
def fieldOp (w : Word) : BitVec 8 := w.extractLsb' 24 8
/-- `rp` = bits 23:22 (R102). -/
def fieldRp (w : Word) : BitVec 2 := w.extractLsb' 22 2
/-- `ra` = bit 21 (R102). -/
def fieldRa (w : Word) : BitVec 1 := w.extractLsb' 21 1
/-- `cp` = bits 20:19 (R102). -/
def fieldCp (w : Word) : BitVec 2 := w.extractLsb' 19 2
/-- `ca` = bit 18 (R102). -/
def fieldCa (w : Word) : BitVec 1 := w.extractLsb' 18 1
/-- `dx` = bits 17:14 (R102). -/
def fieldDx (w : Word) : BitVec 4 := w.extractLsb' 14 4
/-- `dy` = bits 13:10 (R102). -/
def fieldDy (w : Word) : BitVec 4 := w.extractLsb' 10 4
/-- `sel` = bits 9:8 (R102). -/
def fieldSel (w : Word) : BitVec 2 := w.extractLsb' 8 2
/-- `imm` = bits 7:0 (R102). -/
def fieldImm (w : Word) : BitVec 8 := w.extractLsb' 0 8

/-- The plane of a plane code (R105). -/
def planeOfCode (c : BitVec 2) : Plane :=
  match c.toNat with
  | 0 => .src
  | 1 => .prev
  | 2 => .next
  | _ => .dst

/-- The code of a plane (R105). -/
def planeCode : Plane → BitVec 2
  | .src => 0
  | .prev => 1
  | .next => 2
  | .dst => 3

/-- The anchor of an anchor code (R105). -/
def anchorOfCode (c : BitVec 1) : Anchor :=
  match c.toNat with
  | 0 => .s
  | _ => .b

/-- The code of an anchor (R105). -/
def anchorCode : Anchor → BitVec 1
  | .s => 0
  | .b => 1

/-- The geometry of a `sel` field; 3 is reserved (R108). -/
def geometryOfCode (c : BitVec 2) : Option Geometry :=
  match c.toNat with
  | 0 => some .p1
  | 1 => some .p2a
  | 2 => some .p2b
  | _ => none

/-- The code of a geometry (R108). -/
def geometryCode : Geometry → BitVec 2
  | .p1 => 0
  | .p2a => 1
  | .p2b => 2

/-- The offset of a 4-bit field, in two's complement (R104 `sext_4`). -/
def offsetOfField (f : BitVec 4) : Int := f.toInt

/-- The 4-bit field of an offset (R104). -/
def offsetField (d : Int) : BitVec 4 := BitVec.ofInt 4 d

/-- `k` = `imm[3:0]` (R102). -/
def fieldK (w : Word) : Nat := (fieldImm w).toNat % 16

/-- The lane row of `ACCROW`: the field `sel` (R108). -/
def fieldRow (w : Word) : Fin 4 := (fieldSel w).toFin

/-- The operation that the opcode and the used fields of a word name (R102, R106); none for a reserved
opcode or a reserved geometry code. -/
def readInstr (w : Word) : Option Instr :=
  match (fieldOp w).toNat with
  | 0x00 => some .nop
  | 0x01 => some .rbuild
  | 0x10 => some (.sad (planeOfCode (fieldRp w)) (anchorOfCode (fieldRa w)) (planeOfCode (fieldCp w))
      (anchorOfCode (fieldCa w)) (offsetOfField (fieldDx w)) (offsetOfField (fieldDy w)))
  | 0x11 => some .cmp
  | 0x12 => some .ssadd
  | 0x13 => some (.bsad (planeOfCode (fieldCp w)))
  | 0x14 => some .devl
  | 0x15 => some .dmin
  | 0x16 => some .thresh
  | 0x20 => some .clra
  | 0x21 => some (.accrow (planeOfCode (fieldCp w)) (anchorOfCode (fieldCa w))
      (offsetOfField (fieldDx w)) (offsetOfField (fieldDy w)) (fieldRow w))
  | 0x22 => some (.accblk (planeOfCode (fieldCp w)) (anchorOfCode (fieldCa w))
      (offsetOfField (fieldDx w)) (offsetOfField (fieldDy w)))
  | 0x30 => some .store
  | 0x31 => some .blend
  | 0x32 => some .diff
  | 0x33 => some (.pack (fieldImm w).toNat)
  | 0x40 => some (.filt (fieldSel w).toNat)
  | 0x41 => some (.afilt (fieldSel w).toNat)
  | 0x42 => some (.ofilt (fieldSel w).toNat (planeOfCode (fieldCp w)))
  | 0x43 => some .dfilt
  | 0x50 => (geometryOfCode (fieldSel w)).map fun g => .agstart g (fieldK w)
  | 0x51 => some .agnext
  | 0x52 => (geometryOfCode (fieldSel w)).map fun g => .agclamp g (fieldK w)
  | 0x58 => some .tile1
  | 0x59 => some .tile2a
  | 0x5A => some .tile2b
  | 0x5C => some .pass1
  | 0x5D => some .pass2a
  | 0x5E => some .pass2b
  | 0x5F => some .runplane
  | _ => none

/-- The legal field values of R108, as the decoder tests them. -/
def legalFields (i : Instr) : Bool := i.wf

/-- Decode (R101): the opcode test, the unused-bit test and the field test, in this order. -/
def decode (w : Word) : Except DecodeError Instr :=
  match opFormat (fieldOp w).toNat with
  | none => .error .unknownOpcode
  | some f =>
    if w &&& f.mask = fieldOp w ++ (0 : BitVec 24) then
      match readInstr w with
      | some i => if legalFields i then .ok i else .error .reservedField
      | none => .error .reservedField
    else .error .unusedBitSet

/-- A word from its nine fields, from the most significant down (R102). -/
def assemble (op : BitVec 8) (rp : BitVec 2) (ra : BitVec 1) (cp : BitVec 2) (ca : BitVec 1)
    (dx dy : BitVec 4) (sel : BitVec 2) (imm : BitVec 8) : Word :=
  op ++ rp ++ ra ++ cp ++ ca ++ dx ++ dy ++ sel ++ imm

/-- A word that uses no field but `op` (format Z, R103). -/
def assembleZ (op : BitVec 8) : Word := assemble op 0 0 0 0 0 0 0 0

/-- The word of an operation (R102, R103, R106). -/
def encode : Instr → Word
  | .nop => assembleZ 0x00
  | .rbuild => assembleZ 0x01
  | .sad rp ra cp ca dx dy =>
      assemble 0x10 (planeCode rp) (anchorCode ra) (planeCode cp) (anchorCode ca)
        (offsetField dx) (offsetField dy) 0 0
  | .cmp => assembleZ 0x11
  | .ssadd => assembleZ 0x12
  | .bsad cp => assemble 0x13 0 0 (planeCode cp) 0 0 0 0 0
  | .devl => assembleZ 0x14
  | .dmin => assembleZ 0x15
  | .thresh => assembleZ 0x16
  | .clra => assembleZ 0x20
  | .accrow cp ca dx dy row =>
      assemble 0x21 0 0 (planeCode cp) (anchorCode ca) (offsetField dx) (offsetField dy)
        (BitVec.ofFin row) 0
  | .accblk cp ca dx dy =>
      assemble 0x22 0 0 (planeCode cp) (anchorCode ca) (offsetField dx) (offsetField dy) 0 0
  | .store => assembleZ 0x30
  | .blend => assembleZ 0x31
  | .diff => assembleZ 0x32
  | .pack alpha => assemble 0x33 0 0 0 0 0 0 0 (BitVec.ofNat 8 alpha)
  | .filt r => assemble 0x40 0 0 0 0 0 0 (BitVec.ofNat 2 r) 0
  | .afilt r => assemble 0x41 0 0 0 0 0 0 (BitVec.ofNat 2 r) 0
  | .ofilt r cp => assemble 0x42 0 0 (planeCode cp) 0 0 0 (BitVec.ofNat 2 r) 0
  | .dfilt => assembleZ 0x43
  | .agstart g k => assemble 0x50 0 0 0 0 0 0 (geometryCode g) (BitVec.ofNat 8 k)
  | .agnext => assembleZ 0x51
  | .agclamp g k => assemble 0x52 0 0 0 0 0 0 (geometryCode g) (BitVec.ofNat 8 k)
  | .tile1 => assembleZ 0x58
  | .tile2a => assembleZ 0x59
  | .tile2b => assembleZ 0x5A
  | .pass1 => assembleZ 0x5C
  | .pass2a => assembleZ 0x5D
  | .pass2b => assembleZ 0x5E
  | .runplane => assembleZ 0x5F

/-- The instruction that the decoder reads from the low `nbits` bits of `w`; a command is one 32-bit
word (R100), so every higher bit is 0. -/
def decodeTableWord (nbits w : Nat) : Option Instr :=
  match decode (BitVec.ofNat 32 (w % 2 ^ nbits)) with
  | .ok i => some i
  | .error _ => none

end Sys2Proof
end

