-- ==== Sys2Proof/Config.lean ====
section
/-! DEFINITION. What an implementation or its platform fixes: the open parameters (spec/00_scope.md R8),
the mapped addresses (spec/20_memory.md R70), and the one free value, the bytes that memory holds
before anything is written. -/

namespace Sys2Proof

/-- `DEV_GEOM` (R8): the offsets of the two block pairs that `DEVL` compares. -/
structure DevGeom where
  a1 : Int × Int
  b1 : Int × Int
  a2 : Int × Int
  b2 : Int × Int
  deriving DecidableEq, Repr

/-- The default of R8: the block above against the block, the block against the block below. -/
def DevGeom.default : DevGeom := ⟨(0, -1), (0, 0), (0, 0), (0, 1)⟩

/-- Each component of `DEV_GEOM` is in −1..+1 (R8). -/
def DevGeom.admissible (g : DevGeom) : Bool :=
  [g.a1, g.b1, g.a2, g.b2].all fun p =>
    decide (-1 ≤ p.1) && decide (p.1 ≤ 1) && decide (-1 ≤ p.2) && decide (p.2 ≤ 1)

/-- A run of mapped addresses, `base` to `base + size - 1`. -/
structure Region where
  base : Nat
  size : Nat
  deriving DecidableEq, Repr

/-- The parameters that no operation changes: `MemDom` (20_memory.md R70, as a list of regions) and the
three open parameters of R8. -/
structure Platform where
  memDom : List Region
  devGeom : DevGeom
  diffPack : Bool
  p2aAlpha : Nat
  deriving DecidableEq, Repr

/-- The ranges that R8 gives the open parameters. -/
def Platform.admissible (p : Platform) : Bool :=
  p.devGeom.admissible && decide (1 ≤ p.p2aAlpha) && decide (p.p2aAlpha ≤ 255)

/-- DESIGN CHOICE (log entry 3): every address of the 2^32-byte space is mapped. The open parameters are
at the defaults of R8 (log entry 5). -/
def Platform.default : Platform :=
  { memDom := [⟨0, 0x100000000⟩], devGeom := DevGeom.default, diffPack := false, p2aAlpha := 1 }

/-- FREE VALUE (log entry 4): what memory holds at an address before anything is written there
(93_implementation_defined.md U1, U2, U3: any value). -/
opaque Config.initialByte : Nat → Byte

/-- `RECIP_N` (R7). -/
def recipCount : Nat := 1024

/-- `S_THRESH2` (R7). -/
def sThresh2 : Nat := 144

/-- `S_THRESH3` (R7). -/
def sThresh3 : Nat := 400

/-- `ACC_MAX` (R7). -/
def accMax : Nat := 32767

/-- `WACC_MAX` (R7). -/
def waccMax : Nat := 1023

/-- `WMAP_ALIGN` (R7). -/
def wmapAlign : Nat := 32

/-- The highest byte address (20_memory.md R70, R72). -/
def addrMax : Nat := 0xFFFFFFFF

end Sys2Proof
end

