-- ==== Sys2Proof/Machine/State.lean ====
section
/-! DEFINITION. The state of one FRF7-BKU, its platform's memory and the host's pending actions
(spec/10_state.md R20 to R50, spec/20_memory.md R70), and the state after reset (R49). -/

namespace Sys2Proof.Machine

/-- The fault causes of 60_exceptions.md R251. Each is raised into the fault registers of a NEXT state. -/
inductive Cause where
  | illegal
  | cfg
  | oob
  | aovf
  | bus
  | wzero
  | rinvalid
  | accovf
  | badreg
  deriving DecidableEq, Repr

/-- Why the model would stop. There is no constructor: every fault of this unit is recorded in its fault
registers and the machine goes on (60_exceptions.md R250, R253), so no step ends in a stop. -/
inductive Fault where
  deriving DecidableEq, Repr

/-- Why the model would refuse an instruction. -/
inductive Refusal where
  /-- Raised only by an arm of `exec` whose instruction has no meaning yet; no arm raises it now. Safe:
  the model stops where the unit goes on. -/
  | notModelled (mnemonic : String)
  deriving DecidableEq, Repr

/-- Memory: the bytes written so far, as pairs of address and byte with addresses strictly rising. An
address that is not listed has not been written. -/
abbrev Memory := List Host.Cell

/-- One action of the host or the platform on the unit. -/
inductive HostAction where
  /-- `HostRead(off)` (10_state.md R21). -/
  | read (off : Word)
  /-- `HostWrite(off, v)` (10_state.md R21). -/
  | write (off v : Word)
  /-- The host stores a byte into memory, between commands (20_memory.md R81, R82). -/
  | poke (a : Word) (v : Byte)
  /-- Power-on reset (70_reset_and_hazards.md R280). -/
  | powerOn
  deriving DecidableEq, Repr

/-- The configuration registers (10_state.md R26 to R33). `modeP` is `MODE[2:0]`, `modeR1` is
`MODE[5:4]`; `MODE` has no other bits (R33). -/
structure CfgRegs where
  srcBase : Word
  srcStride : Word
  dstBase : Word
  dstStride : Word
  prevBase : Word
  prevStride : Word
  nextBase : Word
  nextStride : Word
  wmapBase : Word
  wmapStride : Word
  width : Half
  height : Half
  lambda : Half
  tmax : Half
  modeP : BitVec 3
  modeR1 : BitVec 2
  tp1 : Half
  deriving DecidableEq, Repr

/-- The address-generator registers (10_state.md R34 to R36): nominal position `TX`, `TY`; search anchor
`SX`, `SY`; base anchor `BX`, `BY`; the latched geometry `AGG` and sub-lattice index `AGK`; `AGDONE`. -/
structure AgRegs where
  tx : Word
  ty : Word
  searchX : Word
  searchY : Word
  baseX : Word
  baseY : Word
  agg : Geometry
  agk : BitVec 4
  agdone : Bool
  deriving DecidableEq, Repr

/-- The datapath registers (10_state.md R37 to R45). -/
structure DataRegs where
  thr : Half
  dev : Half
  devp : Half
  devn : Half
  sadr : BitVec 12
  ssum : Word
  mask : Bool
  acc : Block Half
  wacc : BitVec 10
  ww : Word
  resid : Word
  deriving DecidableEq, Repr

/-- The reciprocal table `RECIP[0..1023]` with its valid flag (10_state.md R46). -/
structure TableRegs where
  recip : List Half
  rvalid : Bool
  deriving DecidableEq, Repr

/-- The fault state (10_state.md R25, R47). -/
structure FaultRegs where
  fault : Bool
  cause : BitVec 8
  finfo : Word
  deriving DecidableEq, Repr

/-- The whole machine. `cfg` to `flt` are the unit's registers (R20); `mem` and `plat` belong to the
platform (R20, R48, R70); `port` and `reply` are the MODEL's own: the host actions still to be served,
and what the last action returned, if it was a port read (log entry 1). -/
structure State where
  cfg : CfgRegs
  ag : AgRegs
  dp : DataRegs
  tab : TableRegs
  flt : FaultRegs
  mem : Memory
  plat : Platform
  port : List HostAction
  reply : Option Word
  deriving DecidableEq, Repr

/-- R49: every configuration register holds 0. -/
def CfgRegs.reset : CfgRegs :=
  { srcBase := 0, srcStride := 0, dstBase := 0, dstStride := 0, prevBase := 0, prevStride := 0,
    nextBase := 0, nextStride := 0, wmapBase := 0, wmapStride := 0, width := 0, height := 0,
    lambda := 0, tmax := 0, modeP := 0, modeR1 := 0, tp1 := 0 }

/-- R49: every address-generator register holds 0; geometry code 0 is P1 (R36). -/
def AgRegs.reset : AgRegs :=
  { tx := 0, ty := 0, searchX := 0, searchY := 0, baseX := 0, baseY := 0, agg := .p1, agk := 0,
    agdone := false }

/-- R49: every datapath register holds 0. -/
def DataRegs.reset : DataRegs :=
  { thr := 0, dev := 0, devp := 0, devn := 0, sadr := 0, ssum := 0, mask := false,
    acc := Quad.fill (Quad.fill 0), wacc := 0, ww := 0, resid := 0 }

/-- R49: the table is invalid and every entry reads 0. -/
def TableRegs.reset : TableRegs := { recip := List.replicate recipCount 0, rvalid := false }

/-- R49: no fault. -/
def FaultRegs.reset : FaultRegs := { fault := false, cause := 0, finfo := 0 }

/-- The machine right after reset (R49, 70_reset_and_hazards.md R281): every register 0, nothing written to
memory, the unit idle. The platform is `Platform.default` (log entries 3 and 5). -/
def State.reset : State :=
  { cfg := CfgRegs.reset, ag := AgRegs.reset, dp := DataRegs.reset, tab := TableRegs.reset,
    flt := FaultRegs.reset, mem := [], plat := Platform.default, port := [], reply := none }

end Sys2Proof.Machine
end

