-- ==== Sys2Proof/Machine/Ops.lean ====
section
/-! DEFINITION. The shared operations: register updates, memory, raising a fault, reset, and running the
pseudocode of one command (spec/20_memory.md R70, R73; spec/60_exceptions.md R250 to R258;
spec/70_reset_and_hazards.md R280). -/

namespace Sys2Proof.Machine

/-! ## Register updates (one named update for each register an operation writes) -/

/-- `SADR <- v` -/
def State.setSadr (s : State) (v : BitVec 12) : State := { s with dp := { s.dp with sadr := v } }
/-- `SSUM <- v` -/
def State.setSsum (s : State) (v : Word) : State := { s with dp := { s.dp with ssum := v } }
/-- `MASK <- v` -/
def State.setMask (s : State) (v : Bool) : State := { s with dp := { s.dp with mask := v } }
/-- `WACC <- v` -/
def State.setWacc (s : State) (v : BitVec 10) : State := { s with dp := { s.dp with wacc := v } }
/-- `ACC <- v`, all sixteen lanes -/
def State.setAcc (s : State) (v : Block Half) : State := { s with dp := { s.dp with acc := v } }
/-- `DEV <- v` -/
def State.setDev (s : State) (v : Half) : State := { s with dp := { s.dp with dev := v } }
/-- `DEVP <- v` -/
def State.setDevp (s : State) (v : Half) : State := { s with dp := { s.dp with devp := v } }
/-- `DEVN <- v` -/
def State.setDevn (s : State) (v : Half) : State := { s with dp := { s.dp with devn := v } }
/-- `THR <- v` -/
def State.setThr (s : State) (v : Half) : State := { s with dp := { s.dp with thr := v } }
/-- `WW <- v` -/
def State.setWw (s : State) (v : Word) : State := { s with dp := { s.dp with ww := v } }
/-- `RESID <- v` -/
def State.setResid (s : State) (v : Word) : State := { s with dp := { s.dp with resid := v } }
/-- `TX, TY <- x, y` -/
def State.setTile (s : State) (x y : Word) : State := { s with ag := { s.ag with tx := x, ty := y } }
/-- `SX, SY, BX, BY <- sx, sy, bx, by` -/
def State.setAnchors (s : State) (sx sy bx bY : Word) : State :=
  { s with ag := { s.ag with searchX := sx, searchY := sy, baseX := bx, baseY := bY } }
/-- `AGG <- g ; AGK <- k` -/
def State.setLatch (s : State) (g : Geometry) (k : BitVec 4) : State :=
  { s with ag := { s.ag with agg := g, agk := k } }
/-- `AGDONE <- v` -/
def State.setAgdone (s : State) (v : Bool) : State := { s with ag := { s.ag with agdone := v } }
/-- `RECIP <- v ; RVALID <- 1` -/
def State.setTable (s : State) (v : List Half) : State :=
  { s with tab := { recip := v, rvalid := true } }
/-- Replace the configuration registers. -/
def State.setCfg (s : State) (c : CfgRegs) : State := { s with cfg := c }
/-- Replace the memory. -/
def State.setMem (s : State) (m : Memory) : State := { s with mem := m }
/-- Replace the fault registers. -/
def State.setFlt (s : State) (f : FaultRegs) : State := { s with flt := f }
/-- The value that the port returns for the current host action. -/
def State.setReply (s : State) (v : Option Word) : State := { s with reply := v }

/-! ## Memory -/

/-- The byte written at `a`, if any. -/
def memFind (m : Memory) (a : Nat) : Option Byte :=
  match m with
  | [] => none
  | (k, v) :: rest => if k = a then some v else memFind rest a

/-- Write `v` at `a`, keeping the addresses strictly rising. -/
def memPut (m : Memory) (a : Nat) (v : Byte) : Memory :=
  match m with
  | [] => [(a, v)]
  | (k, u) :: rest =>
    if a < k then (a, v) :: (k, u) :: rest
    else if a = k then (a, v) :: rest
    else (k, u) :: memPut rest a v

/-- The canonical form above a bound: addresses strictly rising, each at least `lo` and in the address
space. -/
def memWfFrom (lo : Nat) (m : Memory) : Bool :=
  match m with
  | [] => true
  | (k, _) :: rest => decide (lo ≤ k) && decide (k ≤ addrMax) && memWfFrom (k + 1) rest

/-- The canonical form of memory. A listed address always holds a written byte, and an unlisted one holds
none, so no entry repeats what an unlisted address reads as (log entry 4). -/
def Memory.wf (m : Memory) : Bool := memWfFrom 0 m

/-- What an address reads as when nothing has been written there: a free byte (log entry 4). -/
def unlistedByte (a : Nat) : Byte := Config.initialByte a

/-- `Mem(a)`: the byte at an address. -/
def State.byteAt (s : State) (a : Nat) : Byte := (memFind s.mem a).getD (unlistedByte a)

/-- Whether `a` is in `MemDom` (R70). -/
def State.inMemDom (s : State) (a : Nat) : Bool :=
  s.plat.memDom.any fun r => decide (r.base ≤ a) && decide (a < r.base + r.size)

/-! ## Running pseudocode -/

/-- The pseudocode of an operation: it ends in a state with a value, or at a `raise` in the state as it
had been changed up to there (00_scope.md R14, 60_exceptions.md R257). -/
abbrev Op (α : Type) := EStateM Cause State α

/-- The control part of `raise C` (60_exceptions.md R253): the operation ends here, together with every
operation that exec'ed it. -/
def raise {α : Type} (c : Cause) : Op α := fun s => .error c s

/-- A reading step: it changes nothing, and either yields a value or raises. -/
def look {α : Type} (f : State → Except Cause α) : Op α := fun s =>
  match f s with
  | .ok a => .ok a s
  | .error c => .error c s

/-- The code of a cause (60_exceptions.md R251). -/
def causeCode : Cause → BitVec 8
  | .illegal => 1
  | .cfg => 2
  | .oob => 3
  | .aovf => 4
  | .bus => 5
  | .wzero => 6
  | .rinvalid => 7
  | .accovf => 8
  | .badreg => 9

/-- The recording part of `raise C(info)` (60_exceptions.md R253, R256): taking the exception. Only the
first fault since reset is recorded. -/
def takeFault (s : State) (c : Cause) (info : Word) : State :=
  if s.flt.fault then s
  else s.setFlt { fault := true, cause := causeCode c, finfo := info }

/-- Reset, the only return from a fault (60_exceptions.md R258, 70_reset_and_hazards.md R280): every
register takes its reset value; memory, the platform and the host's pending actions are not touched. -/
def resetUnit (s : State) : State :=
  { State.reset with mem := s.mem, plat := s.plat, port := s.port, reply := s.reply }

/-- Run the command `i`, whose pseudocode is `op`: on a fault `FINFO` is the word that the host wrote, which
is the word of `i` (10_state.md R25, 60_exceptions.md R253; log entry 7). -/
def command (i : Instr) (op : Op Unit) (s : State) : Host.Outcome State Fault Refusal :=
  match op s with
  | .ok _ t => .next t
  | .error c t => .next (takeFault t c (encode i))

/-- `MemRead(a, 1)` (R73). -/
def memRead (s : State) (a : Nat) : Except Cause Byte :=
  if s.inMemDom a then .ok (s.byteAt a) else .error .bus

/-- `MemWrite(a, 1, v)` (R73). -/
def memWrite (a : Nat) (v : Byte) : Op Unit := fun s =>
  if s.inMemDom a then .ok () (s.setMem (memPut s.mem a v)) else .error .bus s

end Sys2Proof.Machine
end

