-- ==== Sys2Proof/Machine/Operands.lean ====
section
/-! DEFINITION. The operand forms: anchors, plane samples and blocks, destination samples, weight-map
entries (spec/30_encoding.md R105, spec/20_memory.md R71 to R77). -/

namespace Sys2Proof.Machine

/-- `anchor(0) = (SX, SY)`, `anchor(1) = (BX, BY)` (30_encoding.md R105), as mathematical integers. -/
def anchorPos (s : State) (a : Anchor) : Int × Int :=
  match a with
  | .s => (s.ag.searchX.toNat, s.ag.searchY.toNat)
  | .b => (s.ag.baseX.toNat, s.ag.baseY.toNat)

/-- `P.BASE` (R71). -/
def planeBase (c : CfgRegs) : Plane → Word
  | .src => c.srcBase
  | .prev => c.prevBase
  | .next => c.nextBase
  | .dst => c.dstBase

/-- `P.STRIDE` (R71). -/
def planeStride (c : CfgRegs) : Plane → Word
  | .src => c.srcStride
  | .prev => c.prevStride
  | .next => c.nextStride
  | .dst => c.dstStride

/-- Whether a coordinate is inside the plane (R74). -/
def inPlane (c : CfgRegs) (x y : Int) : Bool :=
  decide (0 ≤ x) && decide (x < c.width.toNat) && decide (0 ≤ y) && decide (y < c.height.toNat)

/-- `a = P.BASE + y * P.STRIDE + x` on unbounded integers (R71, R72), for a coordinate inside the plane. -/
def linearAddr (c : CfgRegs) (p : Plane) (x y : Int) : Nat :=
  (planeBase c p).toNat + y.toNat * (planeStride c p).toNat + x.toNat

/-- The address of a sample: `OOB` outside the plane, `AOVF` past the address space (R72, R74, R76). -/
def sampleAddr (c : CfgRegs) (p : Plane) (x y : Int) : Except Cause Nat :=
  if inPlane c x y then
    if addrMax < linearAddr c p x y then .error .aovf else .ok (linearAddr c p x y)
  else .error .oob

/-- `px(P, x, y)` (R74). -/
def px (s : State) (p : Plane) (x y : Int) : Except Cause Byte :=
  match sampleAddr s.cfg p x y with
  | .ok a => memRead s a
  | .error c => .error c

/-- Four samples of a row, left to right; the first failing sample raises (R75). -/
def pxRow (s : State) (p : Plane) (x y : Int) : Except Cause (Quad Byte) := do
  let v0 ← px s p x y
  let v1 ← px s p (x + 1) y
  let v2 ← px s p (x + 2) y
  let v3 ← px s p (x + 3) y
  pure ⟨v0, v1, v2, v3⟩

/-- `blk(P, x, y)`: rows top to bottom, samples left to right (R75). -/
def blk (s : State) (p : Plane) (x y : Int) : Except Cause (Block Byte) := do
  let r0 ← pxRow s p x y
  let r1 ← pxRow s p x (y + 1)
  let r2 ← pxRow s p x (y + 2)
  let r3 ← pxRow s p x (y + 3)
  pure ⟨r0, r1, r2, r3⟩

/-- The candidate block of an anchor and an offset: `blk(P, x + dx, y + dy)` with `(x, y) = anchor(a)`
(41_sad_threshold.md R131, 42_masked_accumulator.md R153). -/
def candBlk (s : State) (p : Plane) (a : Anchor) (dx dy : Int) : Except Cause (Block Byte) :=
  blk s p ((anchorPos s a).1 + dx) ((anchorPos s a).2 + dy)

/-- `wrpx(x, y, v)`: write one destination sample (R76). -/
def wrpx (x y : Int) (v : Byte) : Op Unit := do
  let a ← look fun s => sampleAddr s.cfg .dst x y
  memWrite a v

/-- `WmapOK` (R77). -/
def wmapOk (c : CfgRegs) : Bool :=
  c.wmapBase.toNat % wmapAlign == 0 && c.wmapStride.toNat % wmapAlign == 0
    && decide (c.width.toNat / 4 ≤ c.wmapStride.toNat)

/-- `wmaddr(i, j)`: the address of a weight-map entry (R77). -/
def wmaddr (c : CfgRegs) (i j : Nat) : Except Cause Nat :=
  if c.width.toNat / 4 ≤ i ∨ c.height.toNat / 4 ≤ j then .error .oob
  else if addrMax < c.wmapBase.toNat + j * c.wmapStride.toNat + i then .error .aovf
  else .ok (c.wmapBase.toNat + j * c.wmapStride.toNat + i)

/-- The sixteen lanes in row-major order, as (row, column). -/
def lanes : List (Fin 4 × Fin 4) :=
  [(0, 0), (0, 1), (0, 2), (0, 3), (1, 0), (1, 1), (1, 2), (1, 3),
   (2, 0), (2, 1), (2, 2), (2, 3), (3, 0), (3, 1), (3, 2), (3, 3)]

/-- The destination coordinate of a lane of the base block: `(BX + c, BY + r)` (43_recip_blend.md R162). -/
def baseLane (s : State) (r c : Fin 4) : Int × Int :=
  ((s.ag.baseX.toNat + c.val : Nat), (s.ag.baseY.toNat + r.val : Nat))

end Sys2Proof.Machine
end

