-- ==== Sys2Proof/Machine/Flags.lean ====
section
/-! DEFINITION. The flags and the register views composed of them: the compare (spec/41_sad_threshold.md
R132), the mode bits (spec/45_scan_driver.md R209), `STATUS` (spec/10_state.md R24), `MODE` (R33),
`AGSTATE` (R36), `ACCW` (R42). -/

namespace Sys2Proof.Machine

/-- The compare: true iff `SADR < THR`, strict and unsigned (R132, 10_state.md R41). -/
def compareMask (d : DataRegs) : Bool := decide (d.sadr.toNat < d.thr.toNat)

/-- `AO`: adaptive-overlapping, `MODE.P[0]` (R209). -/
def modeAO (c : CfgRegs) : Bool := c.modeP.getLsbD 0

/-- `T`: temporal, `MODE.P[1]` (R209). -/
def modeT (c : CfgRegs) : Bool := c.modeP.getLsbD 1

/-- `AR`: adaptive-radius, `MODE.P[2]` (R209). -/
def modeAR (c : CfgRegs) : Bool := c.modeP.getLsbD 2

/-- `STATUS` (10_state.md R24): `CAUSE` in bits 15:8, `RVALID` 3, `MASK` 2, `AGDONE` 1, `FAULT` 0. -/
def statusWord (s : State) : Word :=
  (0 : BitVec 16) ++ s.flt.cause ++ (0 : BitVec 4) ++ BitVec.ofBool s.tab.rvalid
    ++ BitVec.ofBool s.dp.mask ++ BitVec.ofBool s.ag.agdone ++ BitVec.ofBool s.flt.fault

/-- `MODE` (10_state.md R33): `R1` in bits 5:4, `P` in bits 2:0. -/
def modeWord (c : CfgRegs) : Word :=
  (0 : BitVec 26) ++ c.modeR1 ++ (0 : BitVec 1) ++ c.modeP

/-- `AGSTATE` (10_state.md R36): `AGK` in bits 7:4, `AGG` in bits 1:0. -/
def agstateWord (g : AgRegs) : Word :=
  (0 : BitVec 24) ++ g.agk ++ (0 : BitVec 2) ++ geometryCode g.agg

/-- `ACCW[r][h]` (10_state.md R42): the odd lane in bits 31:16, the even lane in bits 15:0. -/
def accWord (b : Block Half) (r : Fin 4) (h : Fin 2) : Word :=
  if h = 0 then (b.get r).q1 ++ (b.get r).q0 else (b.get r).q3 ++ (b.get r).q2

end Sys2Proof.Machine
end

