-- ==== Sys2Proof/Machine/Arith.lean ====
section
/-! DEFINITION. The arithmetic of the datapath, on unbounded integers with the results narrowed at the end:
`sad4x4` (spec/41_sad_threshold.md R130), the threshold (R137), the reciprocal table
(spec/46_setup.md R241), the store and blend values and the weight word
(spec/43_recip_blend.md R160 to R167). -/

namespace Sys2Proof.Machine

/-- `|a - b|` of two samples. -/
def absDiff (a b : Byte) : Nat := (a.toNat - b.toNat) + (b.toNat - a.toNat)

/-- `sad4x4(a, b)` (R130). -/
def sad4x4 (a b : Block Byte) : Nat :=
  (Quad.zip (fun ra rb => (Quad.zip absDiff ra rb).sum) a b).sum

/-- `round(p/q)`, round half up, for positive `q` (00_scope.md R10). -/
def roundDiv (p q : Nat) : Nat := (2 * p + q) / (2 * q)

/-- `sat8(v) = min(255, max(0, v))` (00_scope.md R10). -/
def sat8 (v : Int) : Byte := BitVec.ofNat 8 (min 255 v.toNat)

/-- The threshold `max(1, min((DEV * LAMBDA) >> 10, TMAX))` (R137). -/
def threshValue (dev lambda tmax : Half) : Half :=
  BitVec.ofNat 16 (max 1 (min (dev.toNat * lambda.toNat / 2 ^ 10) tmax.toNat))

/-- The plane-wide threshold of pass 2, `max(1, TMAX)` (45_scan_driver.md R217, R218). -/
def capValue (tmax : Half) : Half := BitVec.ofNat 16 (max 1 tmax.toNat)

/-- `RECIP[i]` as `RBUILD` builds it (46_setup.md R241). -/
def recipEntry (i : Nat) : Half :=
  if i = 0 then 0 else if i = 1 then 32767 else BitVec.ofNat 16 (roundDiv 32768 i)

/-- The whole table (46_setup.md R241). -/
def recipTable : List Half := (List.range recipCount).map recipEntry

/-- `RECIP[n]`. -/
def recipAt (t : TableRegs) (n : Nat) : Half := t.recip.getD n 0

/-- `rcp()` (R160): `RINVALID` before `RBUILD`, then `WZERO` at a count of 0. -/
def rcp (s : State) : Except Cause Nat :=
  if s.tab.rvalid then
    if s.dp.wacc = 0 then .error .wzero else .ok (recipAt s.tab s.dp.wacc.toNat).toNat
  else .error .rinvalid

/-- `storeval(a, q)` (R161). -/
def storeval (a q : Nat) : Byte := sat8 (((a * q / 2 ^ 14 + 1) / 2 : Nat) : Int)

/-- `lo = WW[15:0]`, unsigned (R163). -/
def wwLo (ww : Word) : Nat := (ww.extractLsb' 0 16).toNat

/-- `hi = sext_16(WW[31:16])` (R163). -/
def wwHi (ww : Word) : Int := (ww.extractLsb' 16 16).toInt

/-- `m`: the reciprocal times the this-contribution ratio, rounded (R164). -/
def blendMul (q lo : Nat) : Nat := (q * lo + 16384) / 2 ^ 15

/-- `et`: the scaled existing byte, by an arithmetic shift (R164). -/
def blendExisting (e : Byte) (hi : Int) : Int := (e.toNat : Int) * hi / 2 ^ 10

/-- `blendval(e, a, q, hi, lo)` (R164). -/
def blendval (e : Byte) (a q : Nat) (hi : Int) (lo : Nat) : Byte :=
  sat8 ((blendExisting e hi + ((a * blendMul q lo / 2 ^ 10 : Nat) : Int) + 16) / 2 ^ 5)

/-- The weight word of the `alpha`-th contribution (R166). -/
def packWord (alpha : Nat) : Word :=
  BitVec.ofNat 32 (roundDiv (alpha * 32768) (alpha + 1) * 2 ^ 16 + roundDiv 32768 (alpha + 1))

/-- One lane's term of the residual, `|out - ref|` with `ref` the scaled existing byte, saturated first when
`DIFF_PACK` holds (R167). -/
def residTerm (diffPack : Bool) (out e : Byte) (hi : Int) : Nat :=
  if diffPack then absDiff out (sat8 (blendExisting e hi))
  else ((out.toNat : Int) - blendExisting e hi).natAbs

end Sys2Proof.Machine
end

