-- ==== Sys2Proof/Machine/Accum.lean ====
section
/-! DEFINITION. The masked accumulator `CLRA`, `ACCROW`, `ACCBLK`
(spec/42_masked_accumulator.md R150 to R153). -/

namespace Sys2Proof.Machine

/-- Whether a lane can take a sample: the sum stays within 32767 (R150). -/
def laneFits (a : Half) (v : Byte) : Bool := decide (a.toNat + v.toNat ≤ accMax)

/-- A lane with a sample added (R150). -/
def laneAdd (a : Half) (v : Byte) : Half := a + v.setWidth 16

/-- Whether four lanes can take a candidate row. -/
def rowFits (a : Quad Half) (v : Quad Byte) : Bool := (Quad.zip laneFits a v).all id

/-- Four lanes with a candidate row added. -/
def rowAdd (a : Quad Half) (v : Quad Byte) : Quad Half := Quad.zip laneAdd a v

/-- Whether the sixteen lanes can take a candidate block. -/
def blkFits (a : Block Half) (v : Block Byte) : Bool := (Quad.zip rowFits a v).all id

/-- The sixteen lanes with a candidate block added. -/
def blkAdd (a : Block Half) (v : Block Byte) : Block Half := Quad.zip rowAdd a v

/-- `CLRA` (R151). -/
def clraOp : Op Unit := modify fun s =>
  ((s.setAcc (Quad.fill (Quad.fill 0))).setWacc 0).setSsum 0

/-- `ACCROW cp.ca, dx, dy, row` (R152): nothing is read when `MASK = 0`; all four sums are tested before
any lane changes. -/
def accrowOp (cp : Plane) (ca : Anchor) (dx dy : Int) (row : Fin 4) : Op Unit := do
  if (← get).dp.mask then
    let v ← look fun s => pxRow s cp ((anchorPos s ca).1 + dx) ((anchorPos s ca).2 + dy + row.val)
    let s ← get
    if rowFits (s.dp.acc.get row) v then
      set (s.setAcc (s.dp.acc.set row (rowAdd (s.dp.acc.get row) v)))
    else raise .accovf

/-- `ACCBLK cp.ca, dx, dy` (R153): nothing is read when `MASK = 0`; all sixteen sums are tested before any
lane changes. -/
def accblkOp (cp : Plane) (ca : Anchor) (dx dy : Int) : Op Unit := do
  if (← get).dp.mask then
    let b ← look fun s => candBlk s cp ca dx dy
    let s ← get
    if blkFits s.dp.acc b then set (s.setAcc (blkAdd s.dp.acc b))
    else raise .accovf

/-- `CLRA` (R151). -/
def execClra (s : State) : Host.Outcome State Fault Refusal := command .clra clraOp s

/-- `ACCROW` (R152). -/
def execAccrow (cp : Plane) (ca : Anchor) (dx dy : Int) (row : Fin 4) (s : State) :
    Host.Outcome State Fault Refusal :=
  command (.accrow cp ca dx dy row) (accrowOp cp ca dx dy row) s

/-- `ACCBLK` (R153). -/
def execAccblk (cp : Plane) (ca : Anchor) (dx dy : Int) (s : State) :
    Host.Outcome State Fault Refusal :=
  command (.accblk cp ca dx dy) (accblkOp cp ca dx dy) s

end Sys2Proof.Machine
end

