-- ==== Sys2Proof/Machine/Blend.lean ====
section
/-! DEFINITION. The reciprocal blender `STORE`, `BLEND`, `DIFF`, `PACK`
(spec/43_recip_blend.md R160 to R170). -/

namespace Sys2Proof.Machine

/-- Run `f` for each lane of a list, in order, adding up what it returns. -/
def eachLane (f : Fin 4 → Fin 4 → Op Nat) : List (Fin 4 × Fin 4) → Op Nat
  | [] => pure 0
  | (r, c) :: rest => do
    let n ← f r c
    let total ← eachLane f rest
    pure (n + total)

/-- One lane of `STORE`: write `storeval(ACC[r][c], q)` (R162). -/
def storeLane (q : Nat) (r c : Fin 4) : Op Nat := do
  let s ← get
  wrpx (baseLane s r c).1 (baseLane s r c).2 (storeval ((s.dp.acc.get r).get c).toNat q)
  pure 0

/-- One lane of `BLEND` and `DIFF`: read the existing sample, write the blended one, and return the lane's
residual term (R165, R167). -/
def blendLane (q : Nat) (r c : Fin 4) : Op Nat := do
  let s ← get
  let e ← look fun s => px s .dst (baseLane s r c).1 (baseLane s r c).2
  let out := blendval e ((s.dp.acc.get r).get c).toNat q (wwHi s.dp.ww) (wwLo s.dp.ww)
  wrpx (baseLane s r c).1 (baseLane s r c).2 out
  pure (residTerm s.plat.diffPack out e (wwHi s.dp.ww))

/-- `STORE` (R162). -/
def storeOp : Op Unit := do
  let q ← look rcp
  let _ ← eachLane (storeLane q) lanes

/-- `BLEND` (R165). -/
def blendOp : Op Unit := do
  let q ← look rcp
  let _ ← eachLane (blendLane q) lanes

/-- `DIFF` (R167): as `BLEND`, and `RESID` is written last. -/
def diffOp : Op Unit := do
  let q ← look rcp
  let res ← eachLane (blendLane q) lanes
  modify fun s => s.setResid (BitVec.ofNat 32 res)

/-- `PACK alpha` (R166). -/
def packOp (alpha : Nat) : Op Unit := modify fun s => s.setWw (packWord alpha)

/-- `STORE` (R162). -/
def execStore (s : State) : Host.Outcome State Fault Refusal := command .store storeOp s

/-- `BLEND` (R165). -/
def execBlend (s : State) : Host.Outcome State Fault Refusal := command .blend blendOp s

/-- `DIFF` (R167). -/
def execDiff (s : State) : Host.Outcome State Fault Refusal := command .diff diffOp s

/-- `PACK` (R166). -/
def execPack (alpha : Nat) (s : State) : Host.Outcome State Fault Refusal :=
  command (.pack alpha) (packOp alpha) s

end Sys2Proof.Machine
end

