-- ==== Sys2Proof/Machine/Sad.lean ====
section
/-! DEFINITION. The SAD unit and the threshold operations `SAD`, `CMP`, `SSADD`, `BSAD`, `DEVL`, `DMIN`,
`THRESH` (spec/41_sad_threshold.md R130 to R137). -/

namespace Sys2Proof.Machine

/-- `SAD rp.ra, cp.ca, dx, dy` (R131): the reference block takes no offset. -/
def sadOp (rp : Plane) (ra : Anchor) (cp : Plane) (ca : Anchor) (dx dy : Int) : Op Unit := do
  let ref ← look fun s => candBlk s rp ra 0 0
  let cand ← look fun s => candBlk s cp ca dx dy
  modify fun s => s.setSadr (BitVec.ofNat 12 (sad4x4 ref cand))

/-- `CMP` (R132): compare and count; `ACCOVF` before any change. -/
def cmpOp : Op Unit := do
  let s ← get
  if compareMask s.dp then
    if s.dp.wacc.toNat = waccMax then raise .accovf
    else set ((s.setMask true).setWacc (s.dp.wacc + 1))
  else set (s.setMask false)

/-- `SSADD` (R133). -/
def ssaddOp : Op Unit := do
  let s ← get
  if 0xFFFFFFFF < s.dp.ssum.toNat + s.dp.sadr.toNat then raise .accovf
  else set (s.setSsum (BitVec.ofNat 32 (s.dp.ssum.toNat + s.dp.sadr.toNat)))

/-- `BSAD cp` (R134): `DEVN` for `NEXT`, `DEVP` for `PREV`. -/
def bsadOp (cp : Plane) : Op Unit := do
  let a ← look fun s => candBlk s .src .s 0 0
  let b ← look fun s => candBlk s cp .s 0 0
  let d : Half := BitVec.ofNat 16 (sad4x4 a b)
  modify fun s => if cp = .next then s.setDevn d else s.setDevp d

/-- `DEVL` (R135): the smaller SAD of the two block pairs of `DEV_GEOM` around the search anchor. -/
def devlOp : Op Unit := do
  let g := (← get).plat.devGeom
  let a1 ← look fun s => candBlk s .src .s g.a1.1 g.a1.2
  let b1 ← look fun s => candBlk s .src .s g.b1.1 g.b1.2
  let a2 ← look fun s => candBlk s .src .s g.a2.1 g.a2.2
  let b2 ← look fun s => candBlk s .src .s g.b2.1 g.b2.2
  modify fun s => s.setDev (BitVec.ofNat 16 (min (sad4x4 a1 b1) (sad4x4 a2 b2)))

/-- `DMIN` (R136). -/
def dminOp : Op Unit := modify fun s =>
  s.setDev (BitVec.ofNat 16 (min s.dp.dev.toNat (min s.dp.devp.toNat s.dp.devn.toNat)))

/-- `THRESH` (R137). -/
def threshOp : Op Unit := modify fun s => s.setThr (threshValue s.dp.dev s.cfg.lambda s.cfg.tmax)

/-- `SAD` (R131). -/
def execSad (rp : Plane) (ra : Anchor) (cp : Plane) (ca : Anchor) (dx dy : Int) (s : State) :
    Host.Outcome State Fault Refusal :=
  command (.sad rp ra cp ca dx dy) (sadOp rp ra cp ca dx dy) s

/-- `CMP` (R132). -/
def execCmp (s : State) : Host.Outcome State Fault Refusal := command .cmp cmpOp s

/-- `SSADD` (R133). -/
def execSsadd (s : State) : Host.Outcome State Fault Refusal := command .ssadd ssaddOp s

/-- `BSAD` (R134). -/
def execBsad (cp : Plane) (s : State) : Host.Outcome State Fault Refusal :=
  command (.bsad cp) (bsadOp cp) s

/-- `DEVL` (R135). -/
def execDevl (s : State) : Host.Outcome State Fault Refusal := command .devl devlOp s

/-- `DMIN` (R136). -/
def execDmin (s : State) : Host.Outcome State Fault Refusal := command .dmin dminOp s

/-- `THRESH` (R137). -/
def execThresh (s : State) : Host.Outcome State Fault Refusal := command .thresh threshOp s

end Sys2Proof.Machine
end

