-- ==== Sys2Proof/Machine/Kernel.lean ====
section
/-! DEFINITION. The filter kernels `FILT`, `AFILT`, `OFILT`, `DFILT`
(spec/44_filter_kernels.md R180 to R188). -/

namespace Sys2Proof.Machine

/-- The candidate step (R180). -/
def candOp (cp : Plane) (ca : Anchor) (sum : Bool) (dx dy : Int) : Op Unit := do
  sadOp .src .b cp ca dx dy
  if sum then ssaddOp
  cmpOp
  accblkOp cp ca dx dy

/-- Candidate steps for a list of offsets, in order. -/
def scanOp (cp : Plane) (ca : Anchor) (sum : Bool) : List (Int × Int) → Op Unit
  | [] => pure ()
  | (dx, dy) :: rest => do
    candOp cp ca sum dx dy
    scanOp cp ca sum rest

/-- The offsets of the square of radius `r`: `dy` ascending outer, `dx` ascending inner (R180). -/
def square (r : Nat) : List (Int × Int) :=
  (List.range (2 * r + 1)).flatMap fun j =>
    (List.range (2 * r + 1)).map fun i => ((i : Int) - r, (j : Int) - r)

/-- `ring(d)`: the offsets with `max(|dx|, |dy|) = d`, `dy` ascending, then `dx` ascending (R182). -/
def ring (d : Nat) : List (Int × Int) :=
  (square d).filter fun o => max o.1.natAbs o.2.natAbs == d

/-- `FILT r` (R181): radius 0 scans around the base anchor, the others around the search anchor. -/
def filtOp (r : Nat) : Op Unit := do
  clraOp
  scanOp .src (if r = 0 then .b else .s) false (square r)
  storeOp

/-- `AFILT r` (R182): each wider stage is entered only if the running total asks for it. -/
def afiltOp (r : Nat) : Op Unit := do
  clraOp
  scanOp .src .s true (ring 0 ++ ring 1)
  if sThresh2 ≤ (← get).dp.ssum.toNat then
    scanOp .src .s true (ring 2)
    if r = 3 ∧ sThresh3 ≤ (← get).dp.ssum.toNat then
      scanOp .src .s true (ring 3)
  storeOp

/-- `OFILT r, cp` (R183). -/
def ofiltOp (r : Nat) (cp : Plane) : Op Unit := do
  clraOp
  scanOp cp .s false (square r)
  blendOp

/-- `DFILT` (R184). -/
def dfiltOp : Op Unit := do
  clraOp
  scanOp .src .s false (square 1)
  diffOp

/-- `FILT` (R181). -/
def execFilt (r : Nat) (s : State) : Host.Outcome State Fault Refusal :=
  command (.filt r) (filtOp r) s

/-- `AFILT` (R182). -/
def execAfilt (r : Nat) (s : State) : Host.Outcome State Fault Refusal :=
  command (.afilt r) (afiltOp r) s

/-- `OFILT` (R183). -/
def execOfilt (r : Nat) (cp : Plane) (s : State) : Host.Outcome State Fault Refusal :=
  command (.ofilt r cp) (ofiltOp r cp) s

/-- `DFILT` (R184). -/
def execDfilt (s : State) : Host.Outcome State Fault Refusal := command .dfilt dfiltOp s

end Sys2Proof.Machine
end

