-- ==== Sys2Proof/Machine/Scan.lean ====
section
/-! DEFINITION. The address generator, the tile operations and the plane passes: `AGSTART`, `AGNEXT`,
`AGCLAMP`, `TILE1`, `TILE2A`, `TILE2B`, `PASS1`, `PASS2A`, `PASS2B`, `RUNPLANE`
(spec/45_scan_driver.md R200 to R222). -/

namespace Sys2Proof.Machine

/-! ## Geometries -/

/-- `clamp(v, lo, hi)`, used only with `lo ≤ hi` (00_scope.md R10). -/
def clampNat (v lo hi : Nat) : Nat := min (max v lo) hi

/-- The start `(x0, y0)` of a walk (R200). -/
def walkStart (g : Geometry) (k : Nat) : Nat × Nat :=
  match g with
  | .p1 => (0, 0)
  | .p2a => (2, 2)
  | .p2b => (k % 3 + 1, k / 3 + 1)

/-- The "continue while" test of a geometry on one axis (R200). -/
def walkCont (g : Geometry) (t dim : Nat) : Bool :=
  match g with
  | .p1 => decide (t < dim + 3)
  | .p2a => decide (t + 4 < dim)
  | .p2b => decide (t + 4 < dim)

/-- The search anchor on one axis (R200), with `R = MODE.R1`. -/
def searchAnchor (g : Geometry) (r t dim : Nat) : Nat :=
  match g with
  | .p1 => clampNat t r (dim - r - 4)
  | .p2a => clampNat t 1 (dim - 5)
  | .p2b => clampNat t 2 (dim - 6)

/-- The base anchor on one axis (R200). -/
def baseAnchor (g : Geometry) (t dim : Nat) : Nat :=
  match g with
  | .p1 => min t (dim - 4)
  | .p2a => t
  | .p2b => t

/-- The "needs" row of R200 for one dimension. -/
def dimOk (g : Geometry) (r dim : Nat) : Bool :=
  match g with
  | .p1 => decide (2 * r + 4 ≤ dim)
  | .p2a => decide (6 ≤ dim)
  | .p2b => decide (8 ≤ dim)

/-- The "needs" row of R200 for the parameters: `R ∈ {2, 3}` with P1, `1 ≤ k ≤ 8` with P2B. -/
def paramOk (g : Geometry) (r k : Nat) : Bool :=
  match g with
  | .p1 => r == 2 || r == 3
  | .p2a => true
  | .p2b => decide (1 ≤ k) && decide (k ≤ 8)

/-- `GeomOK(g, k)` (R201). -/
def geomOk (c : CfgRegs) (g : Geometry) (k : Nat) : Bool :=
  paramOk g c.modeR1.toNat k && dimOk g c.modeR1.toNat c.width.toNat
    && dimOk g c.modeR1.toNat c.height.toNat

/-- `agclamp(g)` (R202): the four anchor coordinates from `TX`, `TY` as they stand. -/
def agclamp (s : State) (g : Geometry) : State :=
  s.setAnchors
    (BitVec.ofNat 32 (searchAnchor g s.cfg.modeR1.toNat s.ag.tx.toNat s.cfg.width.toNat))
    (BitVec.ofNat 32 (searchAnchor g s.cfg.modeR1.toNat s.ag.ty.toNat s.cfg.height.toNat))
    (BitVec.ofNat 32 (baseAnchor g s.ag.tx.toNat s.cfg.width.toNat))
    (BitVec.ofNat 32 (baseAnchor g s.ag.ty.toNat s.cfg.height.toNat))

/-- Place the walk at a nominal position: the anchors follow, `AGDONE` becomes 0. -/
def enterTile (s : State) (g : Geometry) (x y : Nat) : State :=
  agclamp ((s.setTile (BitVec.ofNat 32 x) (BitVec.ofNat 32 y)).setAgdone false) g

/-! ## Address-generator operations -/

/-- `AGSTART g, k` (R203). -/
def agstartOp (g : Geometry) (k : Nat) : Op Unit := do
  let s ← get
  if geomOk s.cfg g k then
    let t := s.setLatch g (BitVec.ofNat 4 k)
    let x := (walkStart g k).1
    let y := (walkStart g k).2
    if walkCont g x s.cfg.width.toNat && walkCont g y s.cfg.height.toNat then
      set (enterTile t g x y)
    else set ((t.setTile (BitVec.ofNat 32 x) (BitVec.ofNat 32 y)).setAgdone true)
  else raise .cfg

/-- `AGNEXT` (R204): raster order, `x` inner and `y` outer. -/
def agnextOp : Op Unit := do
  let s ← get
  if s.ag.agdone then pure ()
  else if geomOk s.cfg s.ag.agg s.ag.agk.toNat then
    if walkCont s.ag.agg (s.ag.tx.toNat + 4) s.cfg.width.toNat then
      set (enterTile s s.ag.agg (s.ag.tx.toNat + 4) s.ag.ty.toNat)
    else if walkCont s.ag.agg (s.ag.ty.toNat + 4) s.cfg.height.toNat then
      set (enterTile s s.ag.agg (walkStart s.ag.agg s.ag.agk.toNat).1 (s.ag.ty.toNat + 4))
    else set (s.setAgdone true)
  else raise .cfg

/-- `AGCLAMP g, k` (R205). -/
def agclampOp (g : Geometry) (k : Nat) : Op Unit := do
  let s ← get
  if geomOk s.cfg g k then set (agclamp (s.setLatch g (BitVec.ofNat 4 k)) g)
  else raise .cfg

/-! ## Tile operations -/

/-- An exact tile: neither coordinate of the search anchor was moved (R212). -/
def exactTile (g : AgRegs) : Bool := g.searchX == g.tx && g.searchY == g.ty

/-- A temporal blend of `TILE1`: `PACK k`, then `OFILT R, cp` (R210). -/
def temporalBlend (r k : Nat) (cp : Plane) : Op Unit := do
  packOp k
  ofiltOp r cp

/-- The dispatch of `TILE1` in temporal mode (R210): each blend that runs uses the next `alpha` (R211). -/
def tile1Temporal (r : Nat) : Op Unit := do
  filtOp 0
  if (← get).dp.devp.toNat < (← get).dp.thr.toNat then
    temporalBlend r 1 .prev
    if (← get).dp.devn.toNat < (← get).dp.thr.toNat then temporalBlend r 2 .next
  else
    if (← get).dp.devn.toNat < (← get).dp.thr.toNat then temporalBlend r 1 .next

/-- `TILE1` (R210). -/
def tile1Op : Op Unit := do
  let s ← get
  let r := s.cfg.modeR1.toNat
  if r < 2 then raise .cfg
  else
    devlOp
    if modeT s.cfg then
      bsadOp .prev
      bsadOp .next
      dminOp
      threshOp
      tile1Temporal r
    else
      threshOp
      if modeAR s.cfg && exactTile s.ag then afiltOp r
      else filtOp r

/-- The address of the current tile's weight-map entry, `(TX >> 2, TY >> 2)` (R214, R215); `CFG` first if
the weight map is not legal. -/
def tileEntry (s : State) : Except Cause Nat :=
  if wmapOk s.cfg then wmaddr s.cfg (s.ag.tx.toNat / 4) (s.ag.ty.toNat / 4) else .error .cfg

/-- The residual clipped to a byte: `min(RESID, 255)` (R214). -/
def clipResid (r : Word) : Byte := BitVec.ofNat 8 (min r.toNat 255)

/-- `TILE2A` (R214). -/
def tile2aOp : Op Unit := do
  let a ← look tileEntry
  packOp (← get).plat.p2aAlpha
  dfiltOp
  memWrite a (clipResid (← get).dp.resid)

/-- `TILE2B` (R215). -/
def tile2bOp : Op Unit := do
  let s ← get
  if s.ag.agg = .p2b then
    let a ← look tileEntry
    let w ← look fun s => memRead s a
    if s.cfg.tp1.toNat ≤ w.toNat then
      packOp s.ag.agk.toNat
      ofiltOp 2 .src
  else raise .cfg

/-! ## Pass operations -/

/-- `PlaneOK` (R213); `temporal` says whether the strides of `PREV` and `NEXT` are tested too. -/
def planeOk (c : CfgRegs) (temporal : Bool) : Bool :=
  decide (c.width.toNat ≤ c.srcStride.toNat) && decide (c.width.toNat ≤ c.dstStride.toNat)
    && (!temporal || (decide (c.width.toNat ≤ c.prevStride.toNat)
      && decide (c.width.toNat ≤ c.nextStride.toNat)))

/-- The largest number of tiles of any walk on the plane: `NX * NY` of P1 (R206). -/
def tileCount (c : CfgRegs) : Nat := ((c.width.toNat + 6) / 4) * ((c.height.toNat + 6) / 4)

/-- `while AGDONE = 0: exec(tile); exec(AGNEXT)`, for at most the given number of tiles. -/
def walkTiles (tile : Op Unit) : Nat → Op Unit
  | 0 => pure ()
  | n + 1 => do
    if (← get).ag.agdone then pure ()
    else
      tile
      agnextOp
      walkTiles tile n

/-- Start a walk and run an operation on each of its tiles. The bound `tileCount` is never short of a walk
(R206, R285; log entry 9). -/
def walkOp (g : Geometry) (k : Nat) (tile : Op Unit) : Op Unit := do
  agstartOp g k
  walkTiles tile (tileCount (← get).cfg)

/-- `PASS1` (R216). -/
def pass1Op : Op Unit := do
  let s ← get
  if planeOk s.cfg (modeT s.cfg) then walkOp .p1 0 tile1Op
  else raise .cfg

/-- The opening of both sub-passes: the plane and weight-map checks, then the plane-wide threshold
(R217, R218). DEDUCED (log entry 15): the threshold stays written where `AGSTART` then raises `CFG`. -/
def pass2Open : Op Unit := do
  let s ← get
  if planeOk s.cfg false && wmapOk s.cfg then set (s.setThr (capValue s.cfg.tmax))
  else raise .cfg

/-- `PASS2A` (R217). -/
def pass2aOp : Op Unit := do
  pass2Open
  walkOp .p2a 0 tile2aOp

/-- The sweeps of sub-pass B for a list of `k`, in order (R218). -/
def sweepsOp : List Nat → Op Unit
  | [] => pure ()
  | k :: rest => do
    walkOp .p2b k tile2bOp
    sweepsOp rest

/-- `PASS2B` (R218). -/
def pass2bOp : Op Unit := do
  pass2Open
  sweepsOp [1, 2, 3, 4, 5, 6, 7, 8]

/-- The configuration checks that `RUNPLANE` makes before the first tile (R219). -/
def runplaneOk (c : CfgRegs) : Bool :=
  planeOk c (modeT c) && geomOk c .p1 0
    && (!modeAO c || (wmapOk c && decide (8 ≤ c.width.toNat) && decide (8 ≤ c.height.toNat)))

/-- `RUNPLANE` (R219). -/
def runplaneOp : Op Unit := do
  let s ← get
  if runplaneOk s.cfg then
    pass1Op
    if modeAO s.cfg then
      pass2aOp
      pass2bOp
  else raise .cfg

/-! ## Meanings -/

/-- `AGSTART` (R203). -/
def execAgstart (g : Geometry) (k : Nat) (s : State) : Host.Outcome State Fault Refusal :=
  command (.agstart g k) (agstartOp g k) s

/-- `AGNEXT` (R204). -/
def execAgnext (s : State) : Host.Outcome State Fault Refusal := command .agnext agnextOp s

/-- `AGCLAMP` (R205). -/
def execAgclamp (g : Geometry) (k : Nat) (s : State) : Host.Outcome State Fault Refusal :=
  command (.agclamp g k) (agclampOp g k) s

/-- `TILE1` (R210). -/
def execTile1 (s : State) : Host.Outcome State Fault Refusal := command .tile1 tile1Op s

/-- `TILE2A` (R214). -/
def execTile2a (s : State) : Host.Outcome State Fault Refusal := command .tile2a tile2aOp s

/-- `TILE2B` (R215). -/
def execTile2b (s : State) : Host.Outcome State Fault Refusal := command .tile2b tile2bOp s

/-- `PASS1` (R216). -/
def execPass1 (s : State) : Host.Outcome State Fault Refusal := command .pass1 pass1Op s

/-- `PASS2A` (R217). -/
def execPass2a (s : State) : Host.Outcome State Fault Refusal := command .pass2a pass2aOp s

/-- `PASS2B` (R218). -/
def execPass2b (s : State) : Host.Outcome State Fault Refusal := command .pass2b pass2bOp s

/-- `RUNPLANE` (R219). -/
def execRunplane (s : State) : Host.Outcome State Fault Refusal := command .runplane runplaneOp s

end Sys2Proof.Machine
end

