-- ==== Sys2Proof/Machine/Setup.lean ====
section
/-! DEFINITION. The setup operations `NOP` and `RBUILD` (spec/46_setup.md R240, R241). -/

namespace Sys2Proof.Machine

/-- `NOP` (R240): nothing. -/
def nopOp : Op Unit := pure ()

/-- `RBUILD` (R241): build the reciprocal table and set `RVALID`. -/
def rbuildOp : Op Unit := modify fun s => s.setTable recipTable

/-- `NOP` (R240). -/
def execNop (s : State) : Host.Outcome State Fault Refusal := command .nop nopOp s

/-- `RBUILD` (R241). -/
def execRbuild (s : State) : Host.Outcome State Fault Refusal := command .rbuild rbuildOp s

end Sys2Proof.Machine
end

