-- ==== Sys2Proof/Machine/Dispatch.lean ====
section
/-! DEFINITION. One arm per operation. -/

namespace Sys2Proof.Machine

def exec (i : Instr) (s : State) : Host.Outcome State Fault Refusal :=
  match i with
  | .nop => Sys2Proof.Machine.execNop s
  | .rbuild => Sys2Proof.Machine.execRbuild s
  | .sad rp ra cp ca dx dy => Sys2Proof.Machine.execSad rp ra cp ca dx dy s
  | .cmp => Sys2Proof.Machine.execCmp s
  | .ssadd => Sys2Proof.Machine.execSsadd s
  | .bsad cp => Sys2Proof.Machine.execBsad cp s
  | .devl => Sys2Proof.Machine.execDevl s
  | .dmin => Sys2Proof.Machine.execDmin s
  | .thresh => Sys2Proof.Machine.execThresh s
  | .clra => Sys2Proof.Machine.execClra s
  | .accrow cp ca dx dy row => Sys2Proof.Machine.execAccrow cp ca dx dy row s
  | .accblk cp ca dx dy => Sys2Proof.Machine.execAccblk cp ca dx dy s
  | .store => Sys2Proof.Machine.execStore s
  | .blend => Sys2Proof.Machine.execBlend s
  | .diff => Sys2Proof.Machine.execDiff s
  | .pack alpha => Sys2Proof.Machine.execPack alpha s
  | .filt r => Sys2Proof.Machine.execFilt r s
  | .afilt r => Sys2Proof.Machine.execAfilt r s
  | .ofilt r cp => Sys2Proof.Machine.execOfilt r cp s
  | .dfilt => Sys2Proof.Machine.execDfilt s
  | .agstart g k => Sys2Proof.Machine.execAgstart g k s
  | .agnext => Sys2Proof.Machine.execAgnext s
  | .agclamp g k => Sys2Proof.Machine.execAgclamp g k s
  | .tile1 => Sys2Proof.Machine.execTile1 s
  | .tile2a => Sys2Proof.Machine.execTile2a s
  | .tile2b => Sys2Proof.Machine.execTile2b s
  | .pass1 => Sys2Proof.Machine.execPass1 s
  | .pass2a => Sys2Proof.Machine.execPass2a s
  | .pass2b => Sys2Proof.Machine.execPass2b s
  | .runplane => Sys2Proof.Machine.execRunplane s

end Sys2Proof.Machine
end

