-- ==== Sys2Proof/Machine/Port.lean ====
section
/-! DEFINITION. The register port and the other host actions: the register map, `HostRead`, `HostWrite`
and the execution of a command word (spec/10_state.md R21 to R50, spec/30_encoding.md R101). -/

namespace Sys2Proof.Machine

/-- The registers of the map (R22). -/
inductive Reg where
  | id | cmd | status | ctrl | finfo
  | srcBase | srcStride | dstBase | dstStride | prevBase | prevStride | nextBase | nextStride
  | wmapBase | wmapStride | width | height | lambda | tmax | mode | tp1
  | tx | ty | sx | sy | bx | bY | agstate
  | thr | dev | devp | devn | sadr | ssum | wacc | ww | resid
  | accw (r : Fin 4) (h : Fin 2)
  | recipw (n : Fin 1024)
  deriving DecidableEq, Repr

/-- How the host may use a register (R22). -/
inductive Access where
  | rw | ro | wo
  deriving DecidableEq, Repr

/-- The register at an offset: the rows of R22 with the `ACCW` words and the `RECIP` window; none for an
undefined offset. -/
def regAt (off : Nat) : Option Reg :=
  match off with
  | 0x000 => some .id
  | 0x004 => some .cmd
  | 0x008 => some .status
  | 0x00C => some .ctrl
  | 0x010 => some .finfo
  | 0x020 => some .srcBase
  | 0x024 => some .srcStride
  | 0x028 => some .dstBase
  | 0x02C => some .dstStride
  | 0x030 => some .prevBase
  | 0x034 => some .prevStride
  | 0x038 => some .nextBase
  | 0x03C => some .nextStride
  | 0x040 => some .wmapBase
  | 0x044 => some .wmapStride
  | 0x048 => some .width
  | 0x04C => some .height
  | 0x050 => some .lambda
  | 0x054 => some .tmax
  | 0x058 => some .mode
  | 0x05C => some .tp1
  | 0x060 => some .tx
  | 0x064 => some .ty
  | 0x068 => some .sx
  | 0x06C => some .sy
  | 0x070 => some .bx
  | 0x074 => some .bY
  | 0x078 => some .agstate
  | 0x080 => some .thr
  | 0x084 => some .dev
  | 0x088 => some .devp
  | 0x08C => some .devn
  | 0x090 => some .sadr
  | 0x094 => some .ssum
  | 0x098 => some .wacc
  | 0x09C => some .ww
  | 0x0A0 => some .resid
  | 0x0C0 => some (.accw 0 0)
  | 0x0C4 => some (.accw 0 1)
  | 0x0C8 => some (.accw 1 0)
  | 0x0CC => some (.accw 1 1)
  | 0x0D0 => some (.accw 2 0)
  | 0x0D4 => some (.accw 2 1)
  | 0x0D8 => some (.accw 3 0)
  | 0x0DC => some (.accw 3 1)
  | n =>
    if h : 0x1000 ≤ n ∧ n ≤ 0x1FFC ∧ n % 4 = 0 then some (.recipw ⟨(n - 0x1000) / 4, by omega⟩)
    else none

/-- The access column of R22. -/
def regAccess : Reg → Access
  | .cmd | .ctrl => .wo
  | .id | .status | .finfo | .agstate | .sadr | .ssum | .wacc | .resid | .accw _ _ | .recipw _ => .ro
  | .srcBase | .srcStride | .dstBase | .dstStride | .prevBase | .prevStride | .nextBase | .nextStride
  | .wmapBase | .wmapStride | .width | .height | .lambda | .tmax | .mode | .tp1
  | .tx | .ty | .sx | .sy | .bx | .bY | .thr | .dev | .devp | .devn | .ww => .rw

/-- The constant of `ID`, the bytes "FRF7" (R23). -/
def idWord : Word := 0x46524637

/-- What a register reads as, zero-extended to 32 bits (R21 to R46). -/
def regValue (s : State) : Reg → Word
  | .id => idWord
  | .cmd => 0
  | .status => statusWord s
  | .ctrl => 0
  | .finfo => s.flt.finfo
  | .srcBase => s.cfg.srcBase
  | .srcStride => s.cfg.srcStride
  | .dstBase => s.cfg.dstBase
  | .dstStride => s.cfg.dstStride
  | .prevBase => s.cfg.prevBase
  | .prevStride => s.cfg.prevStride
  | .nextBase => s.cfg.nextBase
  | .nextStride => s.cfg.nextStride
  | .wmapBase => s.cfg.wmapBase
  | .wmapStride => s.cfg.wmapStride
  | .width => s.cfg.width.setWidth 32
  | .height => s.cfg.height.setWidth 32
  | .lambda => s.cfg.lambda.setWidth 32
  | .tmax => s.cfg.tmax.setWidth 32
  | .mode => modeWord s.cfg
  | .tp1 => s.cfg.tp1.setWidth 32
  | .tx => s.ag.tx
  | .ty => s.ag.ty
  | .sx => s.ag.searchX
  | .sy => s.ag.searchY
  | .bx => s.ag.baseX
  | .bY => s.ag.baseY
  | .agstate => agstateWord s.ag
  | .thr => s.dp.thr.setWidth 32
  | .dev => s.dp.dev.setWidth 32
  | .devp => s.dp.devp.setWidth 32
  | .devn => s.dp.devn.setWidth 32
  | .sadr => s.dp.sadr.setWidth 32
  | .ssum => s.dp.ssum
  | .wacc => s.dp.wacc.setWidth 32
  | .ww => s.dp.ww
  | .resid => s.dp.resid
  | .accw r h => accWord s.dp.acc r h
  | .recipw n => (recipAt s.tab n.val).setWidth 32

/-- `REG <- v[width-1:0]` (R21, R22) for a register that the host may write; the registers it may not are
left alone. -/
def regStore (s : State) (r : Reg) (v : Word) : State :=
  match r with
  | .srcBase => s.setCfg { s.cfg with srcBase := v }
  | .srcStride => s.setCfg { s.cfg with srcStride := v }
  | .dstBase => s.setCfg { s.cfg with dstBase := v }
  | .dstStride => s.setCfg { s.cfg with dstStride := v }
  | .prevBase => s.setCfg { s.cfg with prevBase := v }
  | .prevStride => s.setCfg { s.cfg with prevStride := v }
  | .nextBase => s.setCfg { s.cfg with nextBase := v }
  | .nextStride => s.setCfg { s.cfg with nextStride := v }
  | .wmapBase => s.setCfg { s.cfg with wmapBase := v }
  | .wmapStride => s.setCfg { s.cfg with wmapStride := v }
  | .width => s.setCfg { s.cfg with width := v.setWidth 16 }
  | .height => s.setCfg { s.cfg with height := v.setWidth 16 }
  | .lambda => s.setCfg { s.cfg with lambda := v.setWidth 16 }
  | .tmax => s.setCfg { s.cfg with tmax := v.setWidth 16 }
  | .mode => s.setCfg { s.cfg with modeP := v.extractLsb' 0 3, modeR1 := v.extractLsb' 4 2 }
  | .tp1 => s.setCfg { s.cfg with tp1 := v.setWidth 16 }
  | .tx => s.setTile v s.ag.ty
  | .ty => s.setTile s.ag.tx v
  | .sx => s.setAnchors v s.ag.searchY s.ag.baseX s.ag.baseY
  | .sy => s.setAnchors s.ag.searchX v s.ag.baseX s.ag.baseY
  | .bx => s.setAnchors s.ag.searchX s.ag.searchY v s.ag.baseY
  | .bY => s.setAnchors s.ag.searchX s.ag.searchY s.ag.baseX v
  | .thr => s.setThr (v.setWidth 16)
  | .dev => s.setDev (v.setWidth 16)
  | .devp => s.setDevp (v.setWidth 16)
  | .devn => s.setDevn (v.setWidth 16)
  | .ww => s.setWw v
  | .id | .cmd | .status | .ctrl | .finfo | .agstate | .sadr | .ssum | .wacc | .resid
  | .accw _ _ | .recipw _ => s

/-- Decode and execute a command word (30_encoding.md R101): a word that is no command raises `ILLEGAL`
before any change. -/
def runWord (w : Word) (s : State) : Host.Outcome State Fault Refusal :=
  match decode w with
  | .ok i => exec i s
  | .error _ => .next (takeFault s .illegal w)

/-- `HostWrite(off, v)` (R21), the tests in its order: undefined offset, `CTRL`, faulted, read-only, `CMD`,
register. -/
def hostWrite (off v : Word) (s : State) : Host.Outcome State Fault Refusal :=
  match regAt off.toNat with
  | none => .next (takeFault s .badreg off)
  | some r =>
    if r = .ctrl then .next (if v.getLsbD 0 then resetUnit s else s)
    else if s.flt.fault then .next s
    else if regAccess r = .ro then .next s
    else if r = .cmd then runWord v s
    else .next (regStore s r v)

/-- `HostRead(off)` (R21): the state after it, with the returned value as the reply. -/
def hostRead (off : Word) (s : State) : State :=
  match regAt off.toNat with
  | none => (takeFault s .badreg off).setReply (some 0)
  | some r => s.setReply (some (if regAccess r = .wo then 0 else regValue s r))

/-- A byte that the host stores into memory between commands (20_memory.md R82); an address outside
`MemDom` holds no memory, and nothing is stored. -/
def hostPoke (a : Word) (v : Byte) (s : State) : State :=
  if s.inMemDom a.toNat then s.setMem (memPut s.mem a.toNat v) else s

/-- Serve one host action. -/
def serve (a : HostAction) (s : State) : Host.Outcome State Fault Refusal :=
  match a with
  | .read off => .next (hostRead off s)
  | .write off v => hostWrite off v s
  | .poke a v => .next (hostPoke a v s)
  | .powerOn => .next (resetUnit s)

/-- The state in which the first pending action is served: the action is taken from the list, and no value
has been returned yet. -/
def takeAction (s : State) (rest : List HostAction) : State :=
  { s with port := rest, reply := none }

/-- The offset of `CMD` (R22). -/
def cmdOffset : Word := 0x004

/-- The host action that makes the unit execute a command word (R23). -/
def commandAction (w : Word) : HostAction := .write cmdOffset w

end Sys2Proof.Machine
end

