-- ==== Sys2Proof/Machine/Step.lean ====
section
/-! DEFINITION. One step: serve the next host action (spec/00_scope.md R6, spec/10_state.md R21). -/

namespace Sys2Proof.Machine

/-- One step. With no action pending the unit is idle and does nothing (60_exceptions.md R265). -/
def step (s : State) : Host.Outcome State Fault Refusal :=
  match s.port with
  | [] => .next s
  | a :: rest => serve a (takeAction s rest)

/-- `s` with a command word placed as the next host action: a write of that word to `CMD`
(log entry 2). -/
def State.withFetchWord (s : State) (nbits w : Nat) : State :=
  { s with port := commandAction (BitVec.ofNat 32 (w % 2 ^ nbits)) :: s.port }

end Sys2Proof.Machine
end

