-- ==== Sys2Proof/Safety.lean ====
section
/-! DEFINITION. The terms that statements about the unit use: which words are commands
(spec/30_encoding.md R103 to R108), when an access is allowed, the launch premises
(spec/70_reset_and_hazards.md R286), what a write-back computes (spec/43_recip_blend.md), what a candidate
scan adds up (spec/44_filter_kernels.md R180, R188), which registers and planes an operation touches
(spec/10_state.md R22, spec/20_memory.md R88), which faults it can raise (spec/60_exceptions.md R252), the
invariants, and sequences of commands (spec/45_scan_driver.md R206, R221). -/

namespace Sys2Proof.Machine

/-! ## Command words -/

/-- The opcodes that R107 lists as reserved. -/
def reservedOp (n : Nat) : Bool :=
  decide (0x02 ≤ n ∧ n ≤ 0x0F) || decide (0x17 ≤ n ∧ n ≤ 0x1F) || decide (0x23 ≤ n ∧ n ≤ 0x2F)
    || decide (0x34 ≤ n ∧ n ≤ 0x3F) || decide (0x44 ≤ n ∧ n ≤ 0x4F) || decide (0x53 ≤ n ∧ n ≤ 0x57)
    || n == 0x5B || decide (0x60 ≤ n ∧ n ≤ 0xFF)

/-- A legal 4-bit offset field: 0..3 and 13..15 (R104). -/
def offsetBits (f : Nat) : Bool := decide (f ≤ 3) || decide (13 ≤ f)

/-- Which words are commands, by number: the opcodes of R106, the unused bits of R103 and the field values
of R108, read off the bits of the word without the decoder. -/
def wordLegal (w : Word) : Bool :=
  let n := w.toNat
  let cp := n / 2 ^ 19 % 4
  let dx := n / 2 ^ 14 % 16
  let dy := n / 2 ^ 10 % 16
  let sel := n / 2 ^ 8 % 4
  let imm := n % 2 ^ 8
  let low := n % 2 ^ 24
  match n / 2 ^ 24 with
  | 0x10 => n % 2 ^ 10 == 0 && offsetBits dx && offsetBits dy
  | 0x13 => low == cp * 2 ^ 19 && (cp == 1 || cp == 2)
  | 0x21 => n / 2 ^ 21 % 8 == 0 && imm == 0 && offsetBits dx && offsetBits dy
  | 0x22 => n / 2 ^ 21 % 8 == 0 && n % 2 ^ 10 == 0 && offsetBits dx && offsetBits dy
  | 0x33 => low == imm && imm != 0
  | 0x40 => low == sel * 2 ^ 8 && sel != 1
  | 0x41 => low == sel * 2 ^ 8 && decide (2 ≤ sel)
  | 0x42 => low == cp * 2 ^ 19 + sel * 2 ^ 8 && decide (2 ≤ sel) && cp != 3
  | 0x50 => low == sel * 2 ^ 8 + n % 16 && walkBits sel (n % 16)
  | 0x52 => low == sel * 2 ^ 8 + n % 16 && walkBits sel (n % 16)
  | 0x00 | 0x01 | 0x11 | 0x12 | 0x14 | 0x15 | 0x16 | 0x20 | 0x30 | 0x31 | 0x32 | 0x43 | 0x51
  | 0x58 | 0x59 | 0x5A | 0x5C | 0x5D | 0x5E | 0x5F => low == 0
  | _ => false
where
  /-- `k` is 1..8 with geometry 2 and 0 with geometries 0 and 1; geometry 3 is reserved (R108). -/
  walkBits (g k : Nat) : Bool :=
    (decide (g ≤ 1) && k == 0) || (g == 2 && decide (1 ≤ k ∧ k ≤ 8))

/-! ## Accesses -/

/-- No fault has been raised since reset. -/
abbrev Running (s : State) : Prop := s.flt.fault = false

/-- Whether a sample can be accessed: inside the plane, below the end of the address space, mapped
(20_memory.md R74). -/
def sampleOk (s : State) (p : Plane) (x y : Int) : Bool :=
  inPlane s.cfg x y && decide (linearAddr s.cfg p x y ≤ addrMax)
    && s.inMemDom (linearAddr s.cfg p x y)

/-- Every sample of a plane can be accessed (launch premise LP1 of R286). -/
abbrev PlaneMapped (s : State) (p : Plane) : Prop :=
  ∀ x, x < s.cfg.width.toNat → ∀ y, y < s.cfg.height.toNat → sampleOk s p x y = true

/-- Every entry of the weight map can be accessed (LP1 of R286). -/
abbrev WmapMapped (s : State) : Prop :=
  ∀ i, i < s.cfg.width.toNat / 4 → ∀ j, j < s.cfg.height.toNat / 4 →
    s.cfg.wmapBase.toNat + j * s.cfg.wmapStride.toNat + i ≤ addrMax
      ∧ s.inMemDom (s.cfg.wmapBase.toNat + j * s.cfg.wmapStride.toNat + i) = true

/-- No sample of the destination shares a byte with a sample of `p` (LP2 of R286). -/
abbrev DstApart (s : State) (p : Plane) : Prop :=
  ∀ x, x < s.cfg.width.toNat → ∀ y, y < s.cfg.height.toNat →
    ∀ u, u < s.cfg.width.toNat → ∀ v, v < s.cfg.height.toNat →
      linearAddr s.cfg .dst x y ≠ linearAddr s.cfg p u v

/-- The address that a lane of the base block is stored to (43_recip_blend.md R162, 20_memory.md R76). -/
def laneAddr (s : State) (r c : Fin 4) : Except Cause Nat :=
  sampleAddr s.cfg .dst (baseLane s r c).1 (baseLane s r c).2

/-- Whether an address is none of those that the base block is stored to. -/
abbrev OutsideBase (s : State) (a : Nat) : Prop := ∀ l ∈ lanes, laneAddr s l.1 l.2 ≠ .ok a

/-- The byte that a lane of the base block holds in the destination; 0 where it has no address. -/
def laneByte (s : State) (r c : Fin 4) : Byte :=
  match laneAddr s r c with
  | .ok a => s.byteAt a
  | .error _ => 0

/-- Whether the sixteen destination samples of the base block can be accessed. -/
def baseMapped (s : State) : Bool :=
  lanes.all fun l => sampleOk s .dst (baseLane s l.1 l.2).1 (baseLane s l.1 l.2).2

/-! ## What a write-back computes -/

/-- `sum over r, c of |a[r][c] - b[r][c]|` on integers (41_sad_threshold.md R130). -/
def blockDistance (a b : Block Byte) : Nat :=
  ∑ r : Fin 4, ∑ c : Fin 4,
    ((((a.get r).get c).toNat : Int) - (((b.get r).get c).toNat : Int)).natAbs

/-- The reciprocal that a write-back takes for a count (43_recip_blend.md R160). -/
def recipFor (s : State) (n : Nat) : Nat := (recipAt s.tab n).toNat

/-- The byte stored for a lane value and a reciprocal (43_recip_blend.md R161). -/
def storeResult (a q : Nat) : Nat := min 255 ((a * q / 2 ^ 14 + 1) / 2)

/-- `lo = WW[15:0]`, unsigned (43_recip_blend.md R163). -/
def weightLo (ww : Word) : Int := (ww.toNat % 2 ^ 16 : Nat)

/-- `hi = sext_16(WW[31:16])` (43_recip_blend.md R163). -/
def weightHi (ww : Word) : Int :=
  if ww.toNat < 2 ^ 31 then (ww.toNat / 2 ^ 16 : Nat) else (ww.toNat / 2 ^ 16 : Nat) - 2 ^ 16

/-- `et`, the scaled existing byte (43_recip_blend.md R164). -/
def scaledExisting (e : Byte) (ww : Word) : Int := (e.toNat : Int) * weightHi ww / 2 ^ 10

/-- The byte that a blend writes for an existing byte, a lane value, a reciprocal and a weight word
(43_recip_blend.md R164). -/
def blendResult (e : Byte) (a q : Nat) (ww : Word) : Int :=
  let m := ((q : Int) * weightLo ww + 16384) / 2 ^ 15
  min 255 (max 0 ((scaledExisting e ww + (a : Int) * m / 2 ^ 10 + 16) / 2 ^ 5))

/-- The residual of sixteen output bytes against the existing ones (43_recip_blend.md R167). -/
def residResult (diffPack : Bool) (ww : Word) (out : Fin 4 → Fin 4 → Int) (e : Fin 4 → Fin 4 → Byte) : Nat :=
  ∑ r : Fin 4, ∑ c : Fin 4,
    (out r c - (if diffPack then min 255 (max 0 (scaledExisting (e r c) ww))
      else scaledExisting (e r c) ww)).natAbs

/-- A write-back that puts `f r c` into each lane of the base block and changes no other byte. The values
are said for a destination whose rows do not share bytes within a block (log entry 10). -/
def WritesBlock (s t : State) (f : Fin 4 → Fin 4 → Int) : Prop :=
  (4 ≤ s.cfg.dstStride.toNat → ∀ r c, ((laneByte t r c).toNat : Int) = f r c) ∧
  ∀ a, OutsideBase s a → t.byteAt a = s.byteAt a

/-! ## What a candidate scan adds up -/

/-- Whether a read yields a value. -/
def isOk {α : Type} (e : Except Cause α) : Bool :=
  match e with
  | .ok _ => true
  | .error _ => false

/-- Whether the reference block and every candidate block of a scan can be read. -/
def scanReadable (s : State) (cp : Plane) (ca : Anchor) (os : List (Int × Int)) : Bool :=
  isOk (candBlk s .src .b 0 0) && os.all fun o => isOk (candBlk s cp ca o.1 o.2)

/-- The SAD of a candidate against the reference, the source block at the base anchor (R180). -/
def candSad (s : State) (cp : Plane) (ca : Anchor) (o : Int × Int) : Nat :=
  match candBlk s .src .b 0 0, candBlk s cp ca o.1 o.2 with
  | .ok ref, .ok cand => sad4x4 ref cand
  | _, _ => 0

/-- Whether a candidate passes the compare (R180, 41_sad_threshold.md R132). -/
def candPasses (s : State) (cp : Plane) (ca : Anchor) (o : Int × Int) : Bool :=
  decide (candSad s cp ca o < s.dp.thr.toNat)

/-- One sample of a candidate block. -/
def candSample (s : State) (cp : Plane) (ca : Anchor) (o : Int × Int) (r c : Fin 4) : Nat :=
  match candBlk s cp ca o.1 o.2 with
  | .ok b => ((b.get r).get c).toNat
  | .error _ => 0

/-- How many candidates pass (R188: `WACC`). -/
def passCount (s : State) (cp : Plane) (ca : Anchor) (os : List (Int × Int)) : Nat :=
  (os.filter (candPasses s cp ca)).length

/-- The lane sum over the passing candidates (R188: `ACC`). -/
def laneSum (s : State) (cp : Plane) (ca : Anchor) (os : List (Int × Int)) (r c : Fin 4) : Nat :=
  ((os.filter (candPasses s cp ca)).map fun o => candSample s cp ca o r c).sum

/-- The sum of the SADs of all candidates (R188: `SSUM` after `AFILT`). -/
def sadSum (s : State) (cp : Plane) (ca : Anchor) (os : List (Int × Int)) : Nat :=
  (os.map (candSad s cp ca)).sum

/-- The candidates that `AFILT r` visits: stage 1, and the stages its running total asks for (R182). -/
def afiltOffsets (s : State) (r : Nat) : List (Int × Int) :=
  if sadSum s .src .s (ring 0 ++ ring 1) < sThresh2 then ring 0 ++ ring 1
  else if r = 3 ∧ sThresh3 ≤ sadSum s .src .s (ring 0 ++ ring 1 ++ ring 2) then
    ring 0 ++ ring 1 ++ ring 2 ++ ring 3
  else ring 0 ++ ring 1 ++ ring 2

/-- What a finished scan leaves in the datapath registers (R188): the count, the lane sums, the running
total `ssum`, the SAD and the compare result of the last candidate; every other register is kept. -/
structure ScanLeaves (s : State) (cp : Plane) (ca : Anchor) (os : List (Int × Int)) (ssum : Nat)
    (d : DataRegs) : Prop where
  wacc : d.wacc.toNat = passCount s cp ca os
  acc : ∀ r c, ((d.acc.get r).get c).toNat = laneSum s cp ca os r c
  ssum : d.ssum.toNat = ssum
  last : ∀ o, os.getLast? = some o →
    d.sadr.toNat = candSad s cp ca o ∧ d.mask = candPasses s cp ca o
  thr : d.thr = s.dp.thr
  dev : d.dev = s.dp.dev
  devp : d.devp = s.dp.devp
  devn : d.devn = s.dp.devn
  ww : d.ww = s.dp.ww

/-! ## What stays as it is -/

/-- Only datapath registers and memory differ. -/
structure SameButData (s t : State) : Prop where
  cfg : t.cfg = s.cfg
  ag : t.ag = s.ag
  tab : t.tab = s.tab
  flt : t.flt = s.flt
  plat : t.plat = s.plat
  port : t.port = s.port
  reply : t.reply = s.reply

/-- Only datapath registers, address-generator registers and memory differ. -/
structure SameButScan (s t : State) : Prop where
  cfg : t.cfg = s.cfg
  tab : t.tab = s.tab
  flt : t.flt = s.flt
  plat : t.plat = s.plat
  port : t.port = s.port
  reply : t.reply = s.reply

/-- Two states that differ at most in `FINFO`. -/
def SameButFinfo (s t : State) : Prop :=
  s = { t with flt := { t.flt with finfo := s.flt.finfo } }

/-- Equal residual and temporal deviations: what a spatial tile leaves alone. -/
structure SpatialKeeps (d e : DataRegs) : Prop where
  devp : e.devp = d.devp
  devn : e.devn = d.devn
  ww : e.ww = d.ww
  resid : e.resid = d.resid

/-! ## Anchors and planes -/

/-- The anchors are those that R200 and R202 give the nominal position. -/
def Clamped (s : State) (g : Geometry) : Prop :=
  s.ag.searchX.toNat = searchAnchor g s.cfg.modeR1.toNat s.ag.tx.toNat s.cfg.width.toNat ∧
  s.ag.searchY.toNat = searchAnchor g s.cfg.modeR1.toNat s.ag.ty.toNat s.cfg.height.toNat ∧
  s.ag.baseX.toNat = baseAnchor g s.ag.tx.toNat s.cfg.width.toNat ∧
  s.ag.baseY.toNat = baseAnchor g s.ag.ty.toNat s.cfg.height.toNat

/-- The nominal position is within the walk of a geometry: at or past the start of its lattice, and within
the loop bound (R200). -/
def inWalk (s : State) (g : Geometry) (k : Nat) : Bool :=
  decide ((walkStart g k).1 ≤ s.ag.tx.toNat) && decide ((walkStart g k).2 ≤ s.ag.ty.toNat)
    && walkCont g s.ag.tx.toNat s.cfg.width.toNat && walkCont g s.ag.ty.toNat s.cfg.height.toNat

/-- What every kernel of a pass needs of the platform: source and destination mapped, the table built,
open parameters in their ranges. -/
structure LaunchReady (s : State) : Prop where
  running : Running s
  admissible : s.plat.admissible = true
  src : PlaneMapped s .src
  dst : PlaneMapped s .dst
  table : s.tab.rvalid = true

/-- An address that is no sample of the destination plane. -/
abbrev OutsideDst (c : CfgRegs) (a : Nat) : Prop :=
  ∀ x, x < c.width.toNat → ∀ y, y < c.height.toNat → linearAddr c .dst x y ≠ a

/-- An address that is no entry of the weight map. -/
abbrev OutsideWmap (c : CfgRegs) (a : Nat) : Prop :=
  ∀ i, i < c.width.toNat / 4 → ∀ j, j < c.height.toNat / 4 →
    c.wmapBase.toNat + j * c.wmapStride.toNat + i ≠ a

/-! ## Invariants -/

/-- The memory keeps its canonical form. -/
abbrev MemCanonical (s : State) : Prop := Memory.wf s.mem = true

/-- `CAUSE` and `FINFO` are 0 without a fault, and `CAUSE` is 1..9 with one (10_state.md R24, R25,
60_exceptions.md R251). -/
def FaultRecordLegal (s : State) : Prop :=
  (s.flt.fault = false → s.flt.cause = 0 ∧ s.flt.finfo = 0) ∧
  (s.flt.fault = true → 1 ≤ s.flt.cause.toNat ∧ s.flt.cause.toNat ≤ 9)

/-- The table is all zeros before `RBUILD` and the one that `RBUILD` builds after it (10_state.md R46). -/
def TableLegal (s : State) : Prop :=
  (s.tab.rvalid = false → s.tab.recip = List.replicate recipCount 0) ∧
  (s.tab.rvalid = true → s.tab.recip = recipTable)

/-- `AGK` is 1..8 with geometry P2B and 0 otherwise (10_state.md R36). -/
def LatchLegal (s : State) : Prop := walkOk s.ag.agg s.ag.agk.toNat = true

/-- Every lane is 0..32767, `SADR` at most 4080, `RESID` at most 134640 (10_state.md R39, R42, R45). -/
def DataBounded (s : State) : Prop :=
  (∀ r c, ((s.dp.acc.get r).get c).toNat ≤ accMax) ∧ s.dp.sadr.toNat ≤ 4080
    ∧ s.dp.resid.toNat ≤ 134640

/-- What the state rules say of the register contents, together. -/
def RegistersLegal (s : State) : Prop :=
  FaultRecordLegal s ∧ TableLegal s ∧ LatchLegal s ∧ DataBounded s

/-! ## What an operation touches -/

/-- The operations that contain a kernel (44_filter_kernels.md, 45_scan_driver.md). -/
def runsKernel : Instr → Bool
  | .filt _ | .afilt _ | .ofilt _ _ | .dfilt | .tile1 | .tile2a | .tile2b | .pass1 | .pass2a | .pass2b
  | .runplane => true
  | _ => false

/-- The operations that walk a plane (45_scan_driver.md). -/
def runsWalk : Instr → Bool
  | .pass1 | .pass2a | .pass2b | .runplane => true
  | _ => false

/-- The column "written by" of R22: whether an operation may change a register, through the operations it
executes too. `STATUS` is composed of several flags and `FINFO` is written by any fault. -/
def mayWrite (i : Instr) : Reg → Bool
  | .status | .finfo => true
  | .tx | .ty => runsWalk i || match i with | .agstart _ _ | .agnext => true | _ => false
  | .sx | .sy | .bx | .bY =>
      runsWalk i || match i with | .agstart _ _ | .agnext | .agclamp _ _ => true | _ => false
  | .agstate => runsWalk i || match i with | .agstart _ _ | .agclamp _ _ => true | _ => false
  | .thr => runsWalk i || match i with | .thresh | .tile1 => true | _ => false
  | .dev => match i with | .devl | .dmin | .tile1 | .pass1 | .runplane => true | _ => false
  | .devp => match i with | .bsad cp => cp != .next | .tile1 | .pass1 | .runplane => true | _ => false
  | .devn => match i with | .bsad cp => cp == .next | .tile1 | .pass1 | .runplane => true | _ => false
  | .sadr => runsKernel i || match i with | .sad _ _ _ _ _ _ => true | _ => false
  | .ssum => runsKernel i || match i with | .clra | .ssadd => true | _ => false
  | .wacc => runsKernel i || match i with | .clra | .cmp => true | _ => false
  | .ww => runsWalk i || match i with | .pack _ | .tile1 | .tile2a | .tile2b => true | _ => false
  | .resid => match i with | .diff | .dfilt | .tile2a | .pass2a | .runplane => true | _ => false
  | .accw _ _ =>
      runsKernel i || match i with | .clra | .accrow _ _ _ _ _ | .accblk _ _ _ _ => true | _ => false
  | .recipw _ => match i with | .rbuild => true | _ => false
  | _ => false

/-- The table of R88: whether an operation reads or writes a plane, with the mode bits of a
configuration. -/
def touchesPlane (i : Instr) (c : CfgRegs) (p : Plane) : Bool :=
  match i with
  | .sad rp _ cp _ _ _ => p == rp || p == cp
  | .bsad cp => p == .src || p == cp
  | .devl => p == .src
  | .accrow cp _ _ _ _ => p == cp
  | .accblk cp _ _ _ => p == cp
  | .store | .blend | .diff => p == .dst
  | .filt _ | .afilt _ | .dfilt | .tile2a | .tile2b | .pass2a | .pass2b => p == .src || p == .dst
  | .ofilt _ cp => p == .src || p == .dst || p == cp
  | .tile1 | .pass1 | .runplane => p == .src || p == .dst || modeT c
  | _ => false

/-- The table of R88: whether an operation reads or writes the weight map. -/
def touchesWmap (i : Instr) (c : CfgRegs) : Bool :=
  match i with
  | .tile2a | .tile2b | .pass2a | .pass2b => true
  | .runplane => modeAO c
  | _ => false

/-- The table of R88: whether an operation writes the destination. -/
def writesDst (i : Instr) : Bool :=
  runsKernel i || match i with | .store | .blend | .diff => true | _ => false

/-- The table of R88: whether an operation writes the weight map. -/
def writesWmap (i : Instr) (c : CfgRegs) : Bool :=
  match i with
  | .tile2a | .pass2a => true
  | .runplane => modeAO c
  | _ => false

/-- The addresses of the planes and the weight map that R88 lets an operation touch. -/
def MayTouch (i : Instr) (c : CfgRegs) (a : Nat) : Prop :=
  (∃ p, touchesPlane i c p = true ∧
    ∃ x, x < c.width.toNat ∧ ∃ y, y < c.height.toNat ∧ linearAddr c p x y = a) ∨
  (touchesWmap i c = true ∧ ¬ OutsideWmap c a)

/-- The table of R252: whether an operation can raise the cause of a code, `ILLEGAL` left out. -/
def mayRaise (i : Instr) (code : Nat) : Bool :=
  match i with
  | .nop | .rbuild | .clra | .dmin | .thresh | .pack _ => false
  | .cmp | .ssadd => code == 8
  | .sad _ _ _ _ _ _ | .bsad _ | .devl => [3, 4, 5].elem code
  | .accrow _ _ _ _ _ | .accblk _ _ _ _ => [3, 4, 5, 8].elem code
  | .store | .blend | .diff | .filt _ | .afilt _ | .ofilt _ _ | .dfilt => [3, 4, 5, 6, 7].elem code
  | .agstart _ _ | .agnext | .agclamp _ _ => code == 2
  | .tile1 | .tile2a | .tile2b | .pass1 | .pass2a | .pass2b | .runplane =>
      [2, 3, 4, 5, 6, 7].elem code

/-! ## Sequences of commands -/

/-- A host issues commands in order and stops at the first fault (60_exceptions.md R258). -/
def execSeq : List Instr → State → State
  | [], s => s
  | i :: rest, s =>
    if s.flt.fault then s
    else
      match exec i s with
      | .next t => execSeq rest t
      | .fault _ => s
      | .refused _ => s

/-- How many tiles a walk has on one axis of dimension `dim` with start `x0` (45_scan_driver.md R206). -/
def tilesOn (g : Geometry) (x0 dim : Nat) : Nat :=
  match g with
  | .p1 => (dim + 6) / 4
  | .p2a => (dim - 3) / 4
  | .p2b => (dim - 1 - x0) / 4

/-- The tiles of a row, and the rows, of a walk (45_scan_driver.md R206). -/
def tilesAcross (g : Geometry) (k : Nat) (c : CfgRegs) : Nat := tilesOn g (walkStart g k).1 c.width.toNat

@[inherit_doc tilesAcross]
def tilesDown (g : Geometry) (k : Nat) (c : CfgRegs) : Nat := tilesOn g (walkStart g k).2 c.height.toNat

/-- The commands of a walk: the start, then a tile operation and a step for each tile
(45_scan_driver.md R221). -/
def walkCommands (g : Geometry) (k : Nat) (tile : Instr) (c : CfgRegs) : List Instr :=
  .agstart g k :: (List.replicate (tilesAcross g k c * tilesDown g k c) [tile, .agnext]).flatten

/-- The commands that `TILE1` stands for without temporal mode (45_scan_driver.md R210, R212). -/
def spatialCommands (s : State) : List Instr :=
  let r := s.cfg.modeR1.toNat
  [.devl, .thresh,
    if modeAR s.cfg = true ∧ s.ag.searchX = s.ag.tx ∧ s.ag.searchY = s.ag.ty then .afilt r else .filt r]

/-- The temporal blends of `TILE1` for the deviations and the threshold of the tile: each blend that runs
takes the next `alpha` (45_scan_driver.md R210, R211). -/
def temporalCommands (r : Nat) (d : DataRegs) : List Instr :=
  let before := decide (d.devp.toNat < d.thr.toNat)
  let after := decide (d.devn.toNat < d.thr.toNat)
  (if before then [.pack 1, .ofilt r .prev] else [])
    ++ (if after then [.pack (if before then 2 else 1), .ofilt r .next] else [])

/-- The passes that `RUNPLANE` stands for (45_scan_driver.md R219). -/
def planeCommands (c : CfgRegs) : List Instr :=
  if modeAO c then [.pass1, .pass2a, .pass2b] else [.pass1]

/-- The bits of a value that a host-writable register keeps (10_state.md R22, R33). -/
def writeMask : Reg → Word
  | .width | .height | .lambda | .tmax | .tp1 | .thr | .dev | .devp | .devn => 0x0000FFFF
  | .mode => 0x00000037
  | _ => 0xFFFFFFFF

end Sys2Proof.Machine
end

