-- ==== Sys2Proof/Certificates/Slice0/Obligations.lean ====
section
/-! DEFINITION. The statements for the provers: what the numbered rules of spec/ say that the unit does. -/

section

open Sys2Proof Sys2Proof.Machine

/-- Decoder and encoder agree. R102, R103, R106, R108, R109. For every well-formed instruction, decoding its
word gives the instruction back; and every word that decodes is the word of the well-formed instruction it
decodes to. So no operand bit is dropped and each command has one word. -/
def Obligations.DecodeEncodeAgree : Prop :=
  (∀ i : Instr, i.wf = true → decode (encode i) = .ok i) ∧
  ∀ (w : Word) (i : Instr), decode w = .ok i → i.wf = true ∧ encode i = w

/-- A reserved opcode raises ILLEGAL and changes no other state. R107. When the host writes to CMD a word
whose opcode is in one of the ranges that R107 lists, and no fault is recorded, the step records FAULT = 1,
CAUSE = 1 and the word in FINFO and leaves all else as it is after taking the host action. -/
def Obligations.ReservedOpcodesAreIllegal : Prop :=
  ∀ (s : State) (rest : List HostAction) (w : Word),
    s.port = commandAction w :: rest → Running s → reservedOp (w.toNat / 2 ^ 24) = true →
      step s = .next ((takeAction s rest).setFlt { fault := true, cause := 1, finfo := w })

/-- Exactly the words with legal fields and clear unused bits are commands; every other word raises ILLEGAL.
R103, R108. A word decodes to an instruction exactly when its opcode is known, its unused bits are 0 and its
used fields hold legal values, tested on the bits of the word without the decoder; any other word written to
CMD records FAULT = 1, CAUSE = 1 and the word in FINFO, and changes nothing else. -/
def Obligations.LegalWordsAreCommands : Prop :=
  (∀ w : Word, (∃ i, decode w = .ok i) ↔ wordLegal w = true) ∧
  ∀ (s : State) (rest : List HostAction) (w : Word),
    s.port = commandAction w :: rest → Running s → wordLegal w = false →
      step s = .next ((takeAction s rest).setFlt { fault := true, cause := 1, finfo := w })

/-- Words of the worked examples decode to the commands they stand for. R113, R102, R106. One word of each
family of the opcode table, as R113 writes it, decodes to the command beside it, and two words of its illegal
examples decode to none. -/
def Obligations.WorkedWords : Prop :=
  decode 0x01000000 = .ok .rbuild ∧
  decode 0x10204000 = .ok (.sad .src .b .src .s 1 0) ∧
  decode 0x21004200 = .ok (.accrow .src .s 1 0 2) ∧
  decode 0x33000003 = .ok (.pack 3) ∧
  decode 0x42080300 = .ok (.ofilt 3 .prev) ∧
  decode 0x50000205 = .ok (.agstart .p2b 5) ∧
  decode 0x5F000000 = .ok .runplane ∧
  decode 0x11000001 = .error .unusedBitSet ∧
  decode 0x50000300 = .error .reservedField

/-- A step runs the decoded command. R23, R101, 10_state.md. When the next host action is a write to CMD of a
word that decodes to an instruction, and no fault is recorded, the step is exec of that instruction on the
state with the action taken from the list and no reply yet. The list of host actions and the reply are the
model's own (log entry 1). -/
def Obligations.StepRunsTheCommand : Prop :=
  ∀ (s : State) (rest : List HostAction) (w : Word) (i : Instr),
    s.port = commandAction w :: rest → Running s → decode w = .ok i →
      step s = exec i (takeAction s rest)

/-- What each host access does, case by case; for offsets that are not multiples of 4 or lie above 0x1FFC the
model's choice (log entry 6). R21, R23, R280. A write to an undefined offset records BADREG unless a fault is
recorded; a write to CTRL resets if bit 0 is set and does nothing otherwise; while a fault is recorded, and
for a read-only register, a write is ignored. A read returns 0 for an undefined offset, which records BADREG
unless a fault is recorded, 0 for CMD and CTRL, and otherwise the register; it changes nothing else. That an
offset which is not a multiple of 4 or lies above 0x1FFC counts as undefined too is the model's choice and no
rule of the spec (log entry 6, DEDUCED): R21 and R22 speak of multiples of 4 in 0x0000..0x1FFC only. The
pending list and the reply are the model's own (log entry 1). -/
def Obligations.PortSemantics : Prop :=
  ∀ (s : State) (rest : List HostAction) (off v : Word),
    (s.port = .write off v :: rest →
      (regAt off.toNat = none → Running s →
        step s = .next ((takeAction s rest).setFlt { fault := true, cause := 9, finfo := off })) ∧
      (regAt off.toNat = none → s.flt.fault = true → step s = .next (takeAction s rest)) ∧
      (off = 0x00C → step s = .next
        (if v.getLsbD 0 then { State.reset with mem := s.mem, plat := s.plat, port := rest }
          else takeAction s rest)) ∧
      (∀ r, regAt off.toNat = some r → r ≠ .ctrl → s.flt.fault = true ∨ regAccess r = .ro →
        step s = .next (takeAction s rest))) ∧
    (s.port = .read off :: rest →
      (regAt off.toNat = none → Running s → step s = .next
        (((takeAction s rest).setFlt { fault := true, cause := 9, finfo := off }).setReply (some 0))) ∧
      (regAt off.toNat = none → s.flt.fault = true →
        step s = .next ((takeAction s rest).setReply (some 0))) ∧
      (∀ r, regAt off.toNat = some r → step s = .next ((takeAction s rest).setReply
        (some (if regAccess r = .wo then 0 else regValue s r)))))

/-- A register write reads back, cut to the register's width, and changes no other register. R21, R22, R33,
R50. When the host writes a register that it may read and write and no fault is recorded, that register then
reads as the value with the bits outside its width (for MODE, outside bits 5:4 and 2:0) cleared, every other
register of the map reads as before, and memory, the platform and the remaining host actions are unchanged. -/
def Obligations.RegistersDoNotAlias : Prop :=
  ∀ (s : State) (rest : List HostAction) (off v : Word) (r : Reg),
    s.port = .write off v :: rest → Running s → regAt off.toNat = some r → regAccess r = .rw →
      ∃ t, step s = .next t ∧ regValue t r = v &&& writeMask r ∧
        (∀ q, q ≠ r → regValue t q = regValue s q) ∧
        t.mem = s.mem ∧ t.plat = s.plat ∧ t.port = rest ∧ t.reply = none

/-- A faulted unit executes nothing and only reset clears the fault. R258, R259, R21, R280. With a fault
recorded, a write other than one to CTRL with bit 0 set changes nothing; a read changes nothing but the reply;
and whatever the next action is, the step either keeps the fault record as it is or is a reset: power-on, or a
CTRL write with bit 0 set. -/
def Obligations.FaultedUnitIsFrozen : Prop :=
  ∀ (s : State), s.flt.fault = true →
    (∀ off v rest, s.port = .write off v :: rest → (off = 0x00C → v.getLsbD 0 = false) →
      step s = .next (takeAction s rest)) ∧
    (∀ off rest, s.port = .read off :: rest →
      ∃ v, step s = .next ((takeAction s rest).setReply (some v))) ∧
    (∀ t, step s = .next t → t.flt = s.flt ∨
      ∃ rest, (s.port = .powerOn :: rest ∨ ∃ v, s.port = .write 0x00C v :: rest ∧ v.getLsbD 0 = true) ∧
        t = { State.reset with mem := s.mem, plat := s.plat, port := rest })

/-- After either reset every register reads 0, except ID, and memory is as before. R49. At State.reset, and
after a step that serves a power-on reset or a CTRL write with bit 0 set, every register of the map reads 0
except ID, which reads 0x46524637; the step does not change memory. -/
def Obligations.ResetValues : Prop :=
  (∀ r : Reg, regValue State.reset r = if r = .id then 0x46524637 else 0) ∧
  ∀ (s : State) (rest : List HostAction) (v : Word), v.getLsbD 0 = true →
    s.port = .powerOn :: rest ∨ s.port = .write 0x00C v :: rest →
      ∃ t, step s = .next t ∧ t.mem = s.mem ∧
        ∀ r : Reg, regValue t r = if r = .id then 0x46524637 else 0

/-- STATUS, MODE, AGSTATE and ACCW show their fields at the bits the spec gives. R24, R33, R36, R42. STATUS
shows FAULT, AGDONE, MASK, RVALID in bits 0 to 3, CAUSE in bits 15:8 and 0 elsewhere; MODE shows P in bits 2:0
and R1 in bits 5:4; AGSTATE shows the geometry code in bits 1:0 and k in bits 7:4; ACCW[r][h] shows the even
lane in the low half and the odd lane in the high half. -/
def Obligations.ComposedRegisters : Prop :=
  ∀ s : State,
    (regValue s .status).toNat = s.flt.fault.toNat + 2 * s.ag.agdone.toNat + 4 * s.dp.mask.toNat
      + 8 * s.tab.rvalid.toNat + 256 * s.flt.cause.toNat ∧
    (regValue s .mode).toNat = s.cfg.modeP.toNat + 16 * s.cfg.modeR1.toNat ∧
    (regValue s .agstate).toNat =
      (match s.ag.agg with | .p1 => 0 | .p2a => 1 | .p2b => 2) + 16 * s.ag.agk.toNat ∧
    ∀ r : Fin 4,
      (regValue s (.accw r 0)).toNat =
        ((s.dp.acc.get r).get 0).toNat + 65536 * ((s.dp.acc.get r).get 1).toNat ∧
      (regValue s (.accw r 1)).toNat =
        ((s.dp.acc.get r).get 2).toNat + 65536 * ((s.dp.acc.get r).get 3).toNat

/-- Taking a fault writes exactly FAULT, CAUSE and FINFO. R256. A fault raised with no fault recorded sets
FAULT to 1, CAUSE to the code of the cause (ILLEGAL 1, CFG 2, OOB 3, AOVF 4, BUS 5, WZERO 6, RINVALID 7,
ACCOVF 8, BADREG 9) and FINFO to the given word, and changes nothing else; with a fault already recorded
nothing changes. -/
def Obligations.FaultEntryWritesOnlyTheRecord : Prop :=
  (∀ (s : State) (c : Cause) (w : Word), Running s →
    takeFault s c w = s.setFlt { fault := true, cause := causeCode c, finfo := w }) ∧
  (∀ (s : State) (c : Cause) (w : Word), s.flt.fault = true → takeFault s c w = s) ∧
  [Cause.illegal, .cfg, .oob, .aovf, .bus, .wzero, .rinvalid, .accovf, .badreg].map
    (fun c => (causeCode c).toNat) = [1, 2, 3, 4, 5, 6, 7, 8, 9]

/-- Every step keeps the canonical form of memory. 20_memory.md, R73. If the listed addresses of memory rise
strictly and stay below 2^32, then so they do after any step. The list form is the model's own (log entry 4).
-/
def Obligations.MemoryFormKept : Prop :=
  ∀ s t : State, MemCanonical s → step s = .next t → MemCanonical t

/-- Every step keeps the register contents that the state rules allow. R25, R36, R39, R42, R45, R46, R251.
From any state in which CAUSE and FINFO are 0 without a fault and CAUSE is 1 to 9 with one, the table is all
zeros before RBUILD and the built one after it, AGK is 1 to 8 with P2B and 0 otherwise, every lane is at most
32767, SADR at most 4080 and RESID at most 134640, any step reaches such a state. -/
def Obligations.RegistersStayLegal : Prop :=
  ∀ s t : State, RegistersLegal s → step s = .next t → RegistersLegal t

/-- The reset state meets both invariants. R49, R281. The state after reset has memory in canonical form and
legal register contents. -/
def Obligations.ResetMeetsTheInvariants : Prop :=
  MemCanonical State.reset ∧ RegistersLegal State.reset

/-- No operation changes a register that the register map does not list it as writing. R22, R170, R188,
10_state.md. If exec of an instruction answers a next state and a register reads differently there, then the
register map's column of writers, taken through the operations an operation executes, names the instruction
for that register. STATUS, a view of several flags, and FINFO, which any fault writes, are not restricted. -/
def Obligations.OperationsWriteOnlyTheirRegisters : Prop :=
  ∀ (i : Instr) (s t : State) (r : Reg), exec i s = .next t → regValue t r ≠ regValue s r →
    mayWrite i r = true

/-- No operation writes memory outside the buffers that R88 gives it. R88, R76. If exec of an instruction
answers a next state, a byte that is no sample of the destination (for the operations that write it) and no
entry of the weight map (for the operations that write it) reads as before; for an operation that writes
neither, every byte does. Platform, host actions and reply are unchanged too. -/
def Obligations.OperationsWriteOnlyTheirPlanes : Prop :=
  ∀ (i : Instr) (s t : State), exec i s = .next t →
    t.plat = s.plat ∧ t.port = s.port ∧ t.reply = s.reply ∧
    ∀ a : Nat, (writesDst i = true → OutsideDst s.cfg a) → (writesWmap i s.cfg = true → OutsideWmap s.cfg a) →
      t.byteAt a = s.byteAt a

/-- What an operation does depends on no byte outside the buffers that R88 gives it. R88, R296. Run an
instruction from two states that differ in memory only, and there only at addresses outside the planes and the
weight map that R88 lets the instruction touch: the two next states differ in memory only, agree on every byte
it may touch, and every other byte of each is as it was. -/
def Obligations.OperationsReadOnlyTheirPlanes : Prop :=
  ∀ (i : Instr) (s t : State) (m : Memory), exec i s = .next t →
    (∀ a : Nat, MayTouch i s.cfg a → (s.setMem m).byteAt a = s.byteAt a) →
      ∃ u, exec i (s.setMem m) = .next u ∧ u = t.setMem u.mem ∧
        (∀ a : Nat, MayTouch i s.cfg a → u.byteAt a = t.byteAt a) ∧
        ∀ a : Nat, ¬ MayTouch i s.cfg a →
          u.byteAt a = (s.setMem m).byteAt a ∧ t.byteAt a = s.byteAt a

/-- A command can raise only the causes that R252 gives its operation, and records its own word. R252, R253,
R254. If exec of a well-formed instruction on a state with no fault recorded answers a next state with a fault
recorded, then the recorded cause is one that R252 lists for the instruction and FINFO is the instruction's
word. -/
def Obligations.OperationsRaiseOnlyTheirCauses : Prop :=
  ∀ (i : Instr) (s t : State), i.wf = true → Running s → exec i s = .next t → t.flt.fault = true →
    mayRaise i t.flt.cause.toNat = true ∧ t.flt.finfo = encode i

/-- Sample reads test the plane, the address and the mapping in this order; block reads are sixteen sample
reads. R75. A sample read raises OOB outside the plane, else AOVF above 0xFFFFFFFF, else BUS outside the
mapped addresses, else returns the byte at BASE + y * STRIDE + x. A block read returns the array of the
sixteen samples at (x + c, y + r); when some sample fails, it raises the fault of the first failing one in
row-major order. -/
def Obligations.SampleAndBlockReads : Prop :=
  (∀ (s : State) (p : Plane) (x y : Int),
    px s p x y =
      if x < 0 ∨ s.cfg.width.toNat ≤ x ∨ y < 0 ∨ s.cfg.height.toNat ≤ y then .error .oob
      else if 0xFFFFFFFF < linearAddr s.cfg p x y then .error .aovf
      else if s.inMemDom (linearAddr s.cfg p x y) then .ok (s.byteAt (linearAddr s.cfg p x y))
      else .error .bus) ∧
  ∀ (s : State) (p : Plane) (x y : Int),
    (∀ b : Block Byte, blk s p x y = .ok b ↔
      ∀ r c : Fin 4, px s p (x + c.val) (y + r.val) = .ok ((b.get r).get c)) ∧
    ∀ (before after : List (Fin 4 × Fin 4)) (l : Fin 4 × Fin 4) (e : Cause),
      lanes = before ++ l :: after →
      (∀ k ∈ before, ∃ v, px s p (x + k.2.val) (y + k.1.val) = .ok v) →
      px s p (x + l.2.val) (y + l.1.val) = .error e → blk s p x y = .error e

/-- NOP, CLRA and DMIN. R240, R151, R136. NOP changes nothing. CLRA clears the sixteen lanes, WACC and SSUM
and changes nothing else. DMIN leaves in DEV the smallest of DEV, DEVP and DEVN and changes nothing else. -/
def Obligations.PlainRegisterOperations : Prop :=
  ∀ s : State,
    exec .nop s = .next s ∧
    (∃ t, exec .clra s = .next t ∧ (∀ r c, (t.dp.acc.get r).get c = 0) ∧ t.dp.wacc = 0 ∧ t.dp.ssum = 0 ∧
      t = ((s.setAcc t.dp.acc).setWacc t.dp.wacc).setSsum t.dp.ssum) ∧
    ∃ t, exec .dmin s = .next t ∧
      t.dp.dev.toNat = min s.dp.dev.toNat (min s.dp.devp.toNat s.dp.devn.toNat) ∧
      t = s.setDev t.dp.dev

/-- RBUILD builds the reciprocal table. R241. RBUILD leaves RECIP[0] = 0, RECIP[1] = 32767 and RECIP[i] =
(65536 + i) / (2 i) rounded down for i in 2..1023, sets RVALID, and changes nothing else. -/
def Obligations.RbuildBuildsTheTable : Prop :=
  ∀ s : State, ∃ t, exec .rbuild s = .next t ∧
    t.tab.recip.length = 1024 ∧ t.tab.rvalid = true ∧
    recipAt t.tab 0 = 0 ∧ recipAt t.tab 1 = 32767 ∧
    (∀ i, 2 ≤ i → i ≤ 1023 → (recipAt t.tab i).toNat = (65536 + i) / (2 * i)) ∧
    t = { s with tab := t.tab }

/-- SAD leaves the block distance in SADR. R130, R131, R257. If the reference block and the candidate block
can be read, SAD sets SADR to the sum of the absolute differences of their samples, at most 4080, and changes
nothing else. If the reference block cannot be read, or it can and the candidate block cannot, SAD records the
cause of the failing read and changes nothing else. -/
def Obligations.SadComputesTheDistance : Prop :=
  ∀ (rp : Plane) (ra : Anchor) (cp : Plane) (ca : Anchor) (dx dy : Int) (s : State),
    (∀ ref cand, candBlk s rp ra 0 0 = .ok ref → candBlk s cp ca dx dy = .ok cand →
      ∃ t, exec (.sad rp ra cp ca dx dy) s = .next t ∧ t.dp.sadr.toNat = blockDistance ref cand ∧
        t.dp.sadr.toNat ≤ 4080 ∧ t = s.setSadr t.dp.sadr) ∧
    (∀ e, candBlk s rp ra 0 0 = .error e →
      exec (.sad rp ra cp ca dx dy) s = .next (takeFault s e (encode (.sad rp ra cp ca dx dy)))) ∧
    (∀ ref e, candBlk s rp ra 0 0 = .ok ref → candBlk s cp ca dx dy = .error e →
      exec (.sad rp ra cp ca dx dy) s = .next (takeFault s e (encode (.sad rp ra cp ca dx dy))))

/-- CMP sets MASK to SADR < THR and counts a true compare. R132. If SADR is not below THR, CMP clears MASK and
changes nothing else. If it is below and WACC is under 1023, CMP sets MASK, adds 1 to WACC and changes nothing
else. If it is below and WACC is 1023, CMP records ACCOVF and changes nothing else. -/
def Obligations.CmpComparesAndCounts : Prop :=
  ∀ s : State,
    (s.dp.thr.toNat ≤ s.dp.sadr.toNat → exec .cmp s = .next (s.setMask false)) ∧
    (s.dp.sadr.toNat < s.dp.thr.toNat → s.dp.wacc.toNat < 1023 →
      ∃ t, exec .cmp s = .next t ∧ t.dp.mask = true ∧ t.dp.wacc.toNat = s.dp.wacc.toNat + 1 ∧
        t = (s.setMask true).setWacc t.dp.wacc) ∧
    (s.dp.sadr.toNat < s.dp.thr.toNat → s.dp.wacc.toNat = 1023 →
      exec .cmp s = .next (takeFault s .accovf (encode .cmp)))

/-- SSADD adds SADR to SSUM, or overflows. R133. If SSUM + SADR fits 32 bits, SSADD stores the sum in SSUM and
changes nothing else; otherwise it records ACCOVF and changes nothing else. -/
def Obligations.SsaddAddsTheSad : Prop :=
  ∀ s : State,
    (s.dp.ssum.toNat + s.dp.sadr.toNat ≤ 0xFFFFFFFF →
      ∃ t, exec .ssadd s = .next t ∧ t.dp.ssum.toNat = s.dp.ssum.toNat + s.dp.sadr.toNat ∧
        t = s.setSsum t.dp.ssum) ∧
    (0xFFFFFFFF < s.dp.ssum.toNat + s.dp.sadr.toNat →
      exec .ssadd s = .next (takeFault s .accovf (encode .ssadd)))

/-- BSAD leaves the frame distance at the search anchor in DEVP or DEVN. R134, R257. With the source block and
the block of PREV or NEXT at the search anchor readable, BSAD sets DEVP (for PREV) or DEVN (for NEXT) to their
distance and changes nothing else; a failing read is recorded, the source block's first, and nothing else
changes. -/
def Obligations.BsadComparesFrames : Prop :=
  ∀ (cp : Plane) (s : State), cp = .prev ∨ cp = .next →
    (∀ a b, candBlk s .src .s 0 0 = .ok a → candBlk s cp .s 0 0 = .ok b →
      ∃ t, exec (.bsad cp) s = .next t ∧
        (cp = .prev → t.dp.devp.toNat = blockDistance a b ∧ t = s.setDevp t.dp.devp) ∧
        (cp = .next → t.dp.devn.toNat = blockDistance a b ∧ t = s.setDevn t.dp.devn)) ∧
    (∀ e, candBlk s .src .s 0 0 = .error e →
      exec (.bsad cp) s = .next (takeFault s e (encode (.bsad cp)))) ∧
    (∀ a e, candBlk s .src .s 0 0 = .ok a → candBlk s cp .s 0 0 = .error e →
      exec (.bsad cp) s = .next (takeFault s e (encode (.bsad cp))))

/-- DEVL leaves the smaller of the two pair distances in DEV. R135, R8, R257. With the four source blocks at
the search anchor plus the offsets of DEV_GEOM readable, DEVL sets DEV to the smaller of the two distances
a1-b1 and a2-b2 and changes nothing else; the first failing read in the order a1, b1, a2, b2 is recorded and
nothing else changes. -/
def Obligations.DevlTakesTheSmallerPair : Prop :=
  ∀ s : State,
    let at' := fun o : Int × Int => candBlk s .src .s o.1 o.2
    let g := s.plat.devGeom
    (∀ a1 b1 a2 b2, at' g.a1 = .ok a1 → at' g.b1 = .ok b1 → at' g.a2 = .ok a2 → at' g.b2 = .ok b2 →
      ∃ t, exec .devl s = .next t ∧
        t.dp.dev.toNat = min (blockDistance a1 b1) (blockDistance a2 b2) ∧ t = s.setDev t.dp.dev) ∧
    ∀ (before after : List (Int × Int)) (o : Int × Int) (e : Cause),
      [g.a1, g.b1, g.a2, g.b2] = before ++ o :: after →
      (∀ q ∈ before, ∃ b, at' q = .ok b) → at' o = .error e →
        exec .devl s = .next (takeFault s e (encode .devl))

/-- THRESH sets THR to the scaled deviation, clamped to 1..max(1, TMAX). R137. THRESH sets THR to max(1,
min((DEV * LAMBDA) >> 10, TMAX)), which is at least 1 and at most max(1, TMAX), and changes nothing else. -/
def Obligations.ThreshClampsTheProduct : Prop :=
  ∀ s : State, ∃ t, exec .thresh s = .next t ∧
    t.dp.thr.toNat =
      max 1 (min (s.dp.dev.toNat * s.cfg.lambda.toNat / 2 ^ 10) s.cfg.tmax.toNat) ∧
    1 ≤ t.dp.thr.toNat ∧ t.dp.thr.toNat ≤ max 1 s.cfg.tmax.toNat ∧
    t = s.setThr t.dp.thr

/-- A block compared with itself has distance 0 and passes every threshold of at least 1. R138, R130, R132.
With a readable block, THR at least 1 and WACC below 1023, SAD of the block with itself leaves SADR = 0, and
CMP after it sets MASK and adds 1 to WACC; nothing but SADR, MASK and WACC changes. -/
def Obligations.SelfCandidatePasses : Prop :=
  ∀ (p : Plane) (a : Anchor) (s : State), (∃ b, candBlk s p a 0 0 = .ok b) → 1 ≤ s.dp.thr.toNat →
    s.dp.wacc.toNat < 1023 →
      exec (.sad p a p a 0 0) s = .next (s.setSadr 0) ∧
      exec .cmp (s.setSadr 0) = .next (((s.setSadr 0).setMask true).setWacc (s.dp.wacc + 1))

/-- ACCROW adds a candidate row to one row of lanes, under the mask. R152, R150, R257. With MASK = 0 ACCROW
changes nothing. With MASK = 1 and the four samples readable: if no lane of the row would exceed 32767, each
lane of that row grows by its sample, every other lane and register is unchanged; otherwise ACCOVF is recorded
and nothing else changes. A failing read is recorded and nothing else changes. -/
def Obligations.AccrowAddsARow : Prop :=
  ∀ (cp : Plane) (ca : Anchor) (dx dy : Int) (row : Fin 4) (s : State),
    let read := pxRow s cp ((anchorPos s ca).1 + dx) ((anchorPos s ca).2 + dy + row.val)
    let i := Instr.accrow cp ca dx dy row
    (s.dp.mask = false → exec i s = .next s) ∧
    (∀ v, s.dp.mask = true → read = .ok v →
      (∀ c, ((s.dp.acc.get row).get c).toNat + (v.get c).toNat ≤ 32767) →
        ∃ t, exec i s = .next t ∧
          (∀ r c, ((t.dp.acc.get r).get c).toNat =
            ((s.dp.acc.get r).get c).toNat + if r = row then (v.get c).toNat else 0) ∧
          t = s.setAcc t.dp.acc) ∧
    (∀ v c, s.dp.mask = true → read = .ok v →
      32767 < ((s.dp.acc.get row).get c).toNat + (v.get c).toNat →
        exec i s = .next (takeFault s .accovf (encode i))) ∧
    (∀ e, s.dp.mask = true → read = .error e → exec i s = .next (takeFault s e (encode i)))

/-- ACCBLK adds a candidate block to the sixteen lanes, under the mask. R153, R150, R257. With MASK = 0 ACCBLK
changes nothing. With MASK = 1 and the block readable: if no lane would exceed 32767, each lane grows by its
sample and no other register changes; otherwise ACCOVF is recorded and nothing else changes. A failing read is
recorded and nothing else changes. -/
def Obligations.AccblkAddsABlock : Prop :=
  ∀ (cp : Plane) (ca : Anchor) (dx dy : Int) (s : State),
    let i := Instr.accblk cp ca dx dy
    (s.dp.mask = false → exec i s = .next s) ∧
    (∀ b, s.dp.mask = true → candBlk s cp ca dx dy = .ok b →
      (∀ r c, ((s.dp.acc.get r).get c).toNat + ((b.get r).get c).toNat ≤ 32767) →
        ∃ t, exec i s = .next t ∧
          (∀ r c, ((t.dp.acc.get r).get c).toNat =
            ((s.dp.acc.get r).get c).toNat + ((b.get r).get c).toNat) ∧
          t = s.setAcc t.dp.acc) ∧
    (∀ b r c, s.dp.mask = true → candBlk s cp ca dx dy = .ok b →
      32767 < ((s.dp.acc.get r).get c).toNat + ((b.get r).get c).toNat →
        exec i s = .next (takeFault s .accovf (encode i))) ∧
    (∀ e, s.dp.mask = true → candBlk s cp ca dx dy = .error e →
      exec i s = .next (takeFault s e (encode i)))

/-- ACCBLK has the effect of the four ACCROW when none of them faults. R153. If ACCBLK, issued with no fault
recorded, ends without a fault, then issuing ACCROW for rows 0, 1, 2, 3 with the same operands reaches the
same state. -/
def Obligations.FourRowsMakeABlock : Prop :=
  ∀ (cp : Plane) (ca : Anchor) (dx dy : Int) (s t : State),
    exec (.accblk cp ca dx dy) s = .next t → Running t →
      execSeq [.accrow cp ca dx dy 0, .accrow cp ca dx dy 1, .accrow cp ca dx dy 2,
        .accrow cp ca dx dy 3] s = t

/-- STORE writes each lane times the reciprocal of the count to the base block. R162, R161, R160, R170. With
the table built, WACC not 0 and the sixteen destination samples accessible, STORE changes memory only: each
sample of the base block becomes min(255, (((lane * RECIP[WACC]) >> 14) + 1) >> 1), said for a destination
stride of at least 4, and every byte outside the base block reads as before. -/
def Obligations.StoreWritesTheMean : Prop :=
  ∀ s : State, s.tab.rvalid = true → s.dp.wacc ≠ 0 → baseMapped s = true →
    ∃ t, exec .store s = .next t ∧ t = s.setMem t.mem ∧
      WritesBlock s t fun r c =>
        storeResult ((s.dp.acc.get r).get c).toNat (recipFor s s.dp.wacc.toNat)

/-- BLEND writes the weighted mix of the existing byte and the lane to the base block. R165, R164, R163, R160,
R170. With the table built, WACC not 0 and the sixteen destination samples accessible, BLEND changes memory
only: each sample of the base block becomes the blend value of its existing byte, its lane, RECIP[WACC] and
WW, said for a destination stride of at least 4, and every byte outside the base block reads as before. -/
def Obligations.BlendMixesTheBlocks : Prop :=
  ∀ s : State, s.tab.rvalid = true → s.dp.wacc ≠ 0 → baseMapped s = true →
    ∃ t, exec .blend s = .next t ∧ t = s.setMem t.mem ∧
      WritesBlock s t fun r c =>
        blendResult (laneByte s r c) ((s.dp.acc.get r).get c).toNat (recipFor s s.dp.wacc.toNat) s.dp.ww

/-- DIFF blends as BLEND does and leaves the residual in RESID. R167, R164, R163, R160, R170. With the table
built, WACC not 0 and the sixteen destination samples accessible, DIFF writes the base block as BLEND does,
sets RESID to the sum over the lanes of the distance of the new byte from the scaled existing one (saturated
to a byte first when DIFF_PACK holds), said for a destination stride of at least 4, and changes nothing else.
-/
def Obligations.DiffBlendsAndMeasures : Prop :=
  ∀ s : State, s.tab.rvalid = true → s.dp.wacc ≠ 0 → baseMapped s = true →
    let out := fun r c =>
      blendResult (laneByte s r c) ((s.dp.acc.get r).get c).toNat (recipFor s s.dp.wacc.toNat) s.dp.ww
    ∃ t, exec .diff s = .next t ∧ t = (s.setMem t.mem).setResid t.dp.resid ∧ WritesBlock s t out ∧
      (4 ≤ s.cfg.dstStride.toNat →
        t.dp.resid.toNat = residResult s.plat.diffPack s.dp.ww out (laneByte s))

/-- A write-back without a table records RINVALID, and with a count of 0 WZERO. R160, R254, R257. STORE, BLEND
and DIFF with RVALID = 0 record RINVALID and change nothing else; with RVALID = 1 and WACC = 0 they record
WZERO and change nothing else. -/
def Obligations.WriteBackNeedsTableAndCount : Prop :=
  ∀ (i : Instr) (s : State), i = .store ∨ i = .blend ∨ i = .diff →
    (s.tab.rvalid = false → exec i s = .next (takeFault s .rinvalid (encode i))) ∧
    (s.tab.rvalid = true → s.dp.wacc = 0 → exec i s = .next (takeFault s .wzero (encode i)))

/-- A sample fault in the middle of STORE leaves the earlier samples written and the later ones not. R257,
R162. If the table is built, WACC is not 0 and some sample of the base block is the first in row-major order
that cannot be accessed, STORE records the cause of that access; the samples before it hold their stored
values (said for a destination stride of at least 4), and every byte that is none of those samples reads as
before; no register but the fault record changes. -/
def Obligations.FaultInTheMiddleOfAStore : Prop :=
  ∀ (s : State) (before after : List (Fin 4 × Fin 4)) (l : Fin 4 × Fin 4) (e : Cause),
    s.tab.rvalid = true → s.dp.wacc ≠ 0 → lanes = before ++ l :: after →
    (∀ k ∈ before, sampleOk s .dst (baseLane s k.1 k.2).1 (baseLane s k.1 k.2).2 = true) →
    px s .dst (baseLane s l.1 l.2).1 (baseLane s l.1 l.2).2 = .error e →
      ∃ m, exec .store s = .next (takeFault (s.setMem m) e (encode .store)) ∧
        (4 ≤ s.cfg.dstStride.toNat → ∀ k ∈ before, (laneByte (s.setMem m) k.1 k.2).toNat =
          storeResult ((s.dp.acc.get k.1).get k.2).toNat (recipFor s s.dp.wacc.toNat)) ∧
        ∀ a, (∀ k ∈ before, laneAddr s k.1 k.2 ≠ .ok a) → (s.setMem m).byteAt a = s.byteAt a

/-- PACK alpha builds the weight word. R166. For alpha in 1..255, PACK sets the low half of WW to 32768 /
(alpha + 1) and the high half to alpha * 32768 / (alpha + 1), each rounded half up, so that the halves add up
to 32768; it changes nothing else. -/
def Obligations.PackBuildsTheWeightWord : Prop :=
  ∀ (alpha : Nat) (s : State), 1 ≤ alpha → alpha ≤ 255 →
    ∃ t, exec (.pack alpha) s = .next t ∧
      t.dp.ww.toNat % 2 ^ 16 = (65536 + alpha + 1) / (2 * (alpha + 1)) ∧
      t.dp.ww.toNat / 2 ^ 16 = (65536 * alpha + alpha + 1) / (2 * (alpha + 1)) ∧
      t.dp.ww.toNat % 2 ^ 16 + t.dp.ww.toNat / 2 ^ 16 = 32768 ∧
      t = s.setWw t.dp.ww

/-- Store and blend give back the common value of n equal candidates. R169. For every count n in 1..49 and
value v, the store value of n * v with the table's reciprocal of n is v; and for every alpha in 1..255 the
blend of an existing v with n * v, that reciprocal and the weight word of PACK alpha is v. -/
def Obligations.UniformInputIsExact : Prop :=
  ∀ (n : Nat) (v : Byte), 1 ≤ n → n ≤ 49 →
    storeval (n * v.toNat) (recipEntry n).toNat = v ∧
    ∀ alpha, 1 ≤ alpha → alpha ≤ 255 →
      blendval v (n * v.toNat) (recipEntry n).toNat (wwHi (packWord alpha)) (wwLo (packWord alpha)) = v

/-- FILT stores the mean of the candidates that pass. R181, R180, R162, R188. For r = 0, 2, 3: if the
reference and all candidates of the square of radius r around the anchor (the base anchor for r = 0, else the
search anchor) can be read, at least one passes, the table is built and the base block is accessible, FILT r
ends without a fault; WACC is the number of passing candidates, the lanes hold their sums, SSUM is 0, SADR and
MASK belong to the last candidate, each sample of the base block becomes the store value of its lane sum, and
nothing else changes. -/
def Obligations.FiltFiltersTheBlock : Prop :=
  ∀ (r : Nat) (s : State), r = 0 ∨ r = 2 ∨ r = 3 →
    let a := if r = 0 then Anchor.b else Anchor.s
    scanReadable s .src a (square r) = true → 0 < passCount s .src a (square r) →
    s.tab.rvalid = true → baseMapped s = true →
      ∃ t, exec (.filt r) s = .next t ∧ SameButData s t ∧ ScanLeaves s .src a (square r) 0 t.dp ∧
        t.dp.resid = s.dp.resid ∧
        WritesBlock s t fun i j => storeResult (laneSum s .src a (square r) i j)
          (recipFor s (passCount s .src a (square r)))

/-- AFILT scans the rings its running total asks for and stores the mean of the passing candidates. R182,
R180, R162, R188. For r = 2, 3: let the candidates be the offsets at distance 0 and 1, those at distance 2 if
the SADs so far add up to at least 144, and those at distance 3 if then r = 3 and they add up to at least 400.
If these can be read, at least one passes, the table is built and the base block is accessible, AFILT r ends
without a fault with SSUM the sum of their SADs, WACC the number of passing ones, the lanes their sums, and
the store values in the base block; nothing else changes. -/
def Obligations.AfiltWidensOnDemand : Prop :=
  ∀ (r : Nat) (s : State), r = 2 ∨ r = 3 →
    let os := afiltOffsets s r
    scanReadable s .src .s os = true → 0 < passCount s .src .s os →
    s.tab.rvalid = true → baseMapped s = true →
      ∃ t, exec (.afilt r) s = .next t ∧ SameButData s t ∧
        ScanLeaves s .src .s os (sadSum s .src .s os) t.dp ∧ t.dp.resid = s.dp.resid ∧
        WritesBlock s t fun i j => storeResult (laneSum s .src .s os i j)
          (recipFor s (passCount s .src .s os))

/-- OFILT blends the mean of the passing candidates of a plane into the destination. R183, R180, R165, R188.
For r = 2, 3 and plane SRC, PREV or NEXT: if the reference and all candidates of that plane can be read, at
least one passes, the table is built and the base block is accessible, OFILT ends without a fault; WACC, the
lanes, SSUM = 0, SADR and MASK are as after a plain filter, each sample of the base block becomes the blend of
its byte with its lane sum under the weight word, and nothing else changes. -/
def Obligations.OfiltBlendsTheBlock : Prop :=
  ∀ (r : Nat) (cp : Plane) (s : State), r = 2 ∨ r = 3 → cp ≠ .dst →
    scanReadable s cp .s (square r) = true → 0 < passCount s cp .s (square r) →
    s.tab.rvalid = true → baseMapped s = true →
      ∃ t, exec (.ofilt r cp) s = .next t ∧ SameButData s t ∧ ScanLeaves s cp .s (square r) 0 t.dp ∧
        t.dp.resid = s.dp.resid ∧
        WritesBlock s t fun i j => blendResult (laneByte s i j) (laneSum s cp .s (square r) i j)
          (recipFor s (passCount s cp .s (square r))) s.dp.ww

/-- DFILT blends a radius-1 filter into the destination and leaves the residual. R184, R180, R167, R188. If
the reference and the nine candidates can be read, at least one passes, the table is built and the base block
is accessible, DFILT ends without a fault; WACC, the lanes, SSUM = 0, SADR and MASK are as after a plain
filter, each sample of the base block becomes the blend of its byte with its lane sum under the weight word,
RESID is the residual (for a destination stride of at least 4), and nothing else changes. -/
def Obligations.DfiltBlendsAndMeasures : Prop :=
  ∀ s : State,
    scanReadable s .src .s (square 1) = true → 0 < passCount s .src .s (square 1) →
    s.tab.rvalid = true → baseMapped s = true →
      let out := fun i j => blendResult (laneByte s i j) (laneSum s .src .s (square 1) i j)
        (recipFor s (passCount s .src .s (square 1))) s.dp.ww
      ∃ t, exec .dfilt s = .next t ∧ SameButData s t ∧ ScanLeaves s .src .s (square 1) 0 t.dp ∧
        WritesBlock s t out ∧
        (4 ≤ s.cfg.dstStride.toNat →
          t.dp.resid.toNat = residResult s.plat.diffPack s.dp.ww out (laneByte s))

/-- When the reference is among the candidates, at least one candidate passes. R185. With THR at least 1 and a
readable reference block, the count of passing source candidates is at least 1 in the square of radius r
around the search anchor whenever the base anchor lies within r of the search anchor on both axes, is exactly
1 for the square of radius 0 around the base anchor, and is at least 1 for the candidates of AFILT when the
two anchors are equal. -/
def Obligations.SelfCandidateGuaranteesWeight : Prop :=
  ∀ (s : State) (r : Nat), 1 ≤ s.dp.thr.toNat → (∃ ref, candBlk s .src .b 0 0 = .ok ref) →
    (((s.ag.baseX.toNat : Int) - s.ag.searchX.toNat).natAbs ≤ r →
      ((s.ag.baseY.toNat : Int) - s.ag.searchY.toNat).natAbs ≤ r →
        0 < passCount s .src .s (square r)) ∧
    passCount s .src .b (square 0) = 1 ∧
    (s.ag.baseX = s.ag.searchX → s.ag.baseY = s.ag.searchY →
      0 < passCount s .src .s (afiltOffsets s r))

/-- AGSTART latches the geometry and places the walk at its first tile. R203, R200, R201. For a legal geometry
and index: if the plane or the radius does not fit the geometry, AGSTART records CFG and changes nothing else.
Otherwise it latches geometry and index, sets TX, TY to the start of the walk and AGDONE to whether the start
is past the loop bound on some axis; if there is a first tile the anchors become those of R200, else they keep
their values; nothing else changes. -/
def Obligations.AgstartStartsTheWalk : Prop :=
  ∀ (g : Geometry) (k : Nat) (s : State), walkOk g k = true →
    (geomOk s.cfg g k = false →
      exec (.agstart g k) s = .next (takeFault s .cfg (encode (.agstart g k)))) ∧
    (geomOk s.cfg g k = true → ∃ t, exec (.agstart g k) s = .next t ∧ t = { s with ag := t.ag } ∧
      t.ag.agg = g ∧ t.ag.agk.toNat = k ∧
      t.ag.tx.toNat = (walkStart g k).1 ∧ t.ag.ty.toNat = (walkStart g k).2 ∧
      t.ag.agdone = !(walkCont g (walkStart g k).1 s.cfg.width.toNat
        && walkCont g (walkStart g k).2 s.cfg.height.toNat) ∧
      (t.ag.agdone = false → Clamped t g) ∧
      (t.ag.agdone = true → t.ag.searchX = s.ag.searchX ∧ t.ag.searchY = s.ag.searchY ∧
        t.ag.baseX = s.ag.baseX ∧ t.ag.baseY = s.ag.baseY))

/-- AGNEXT moves to the next tile in raster order. R204, R200, R201. With AGDONE = 1 AGNEXT changes nothing.
Otherwise, if the latched geometry does not fit the plane it records CFG and changes nothing else; if it fits,
TX grows by 4 when the loop bound allows it, else TX returns to its start and TY grows by 4 when the bound
allows that, else AGDONE becomes 1 and nothing else changes; after a move the anchors are those of R200 and
nothing else has changed. -/
def Obligations.AgnextStepsTheWalk : Prop :=
  ∀ s : State,
    let g := s.ag.agg
    let k := s.ag.agk.toNat
    let inRow := walkCont g (s.ag.tx.toNat + 4) s.cfg.width.toNat
    let inColumn := walkCont g (s.ag.ty.toNat + 4) s.cfg.height.toNat
    (s.ag.agdone = true → exec .agnext s = .next s) ∧
    (s.ag.agdone = false → geomOk s.cfg g k = false →
      exec .agnext s = .next (takeFault s .cfg (encode .agnext))) ∧
    (s.ag.agdone = false → geomOk s.cfg g k = true → inRow = false → inColumn = false →
      exec .agnext s = .next (s.setAgdone true)) ∧
    (s.ag.agdone = false → geomOk s.cfg g k = true → inRow = true ∨ inColumn = true →
      ∃ t, exec .agnext s = .next t ∧
        t.ag.tx.toNat = (if inRow then s.ag.tx.toNat + 4 else (walkStart g k).1) ∧
        t.ag.ty.toNat = (if inRow then s.ag.ty.toNat else s.ag.ty.toNat + 4) ∧
        Clamped t g ∧
        t = (s.setTile t.ag.tx t.ag.ty).setAnchors t.ag.searchX t.ag.searchY t.ag.baseX t.ag.baseY)

/-- AGCLAMP computes the anchors of the nominal position as it stands. R205, R202, R201. For a legal geometry
and index: if the plane or the radius does not fit, AGCLAMP records CFG and changes nothing else; otherwise it
latches geometry and index, the anchors become those of R200 for TX, TY, and nothing else changes. -/
def Obligations.AgclampPlacesTheAnchors : Prop :=
  ∀ (g : Geometry) (k : Nat) (s : State), walkOk g k = true →
    (geomOk s.cfg g k = false →
      exec (.agclamp g k) s = .next (takeFault s .cfg (encode (.agclamp g k)))) ∧
    (geomOk s.cfg g k = true → ∃ t, exec (.agclamp g k) s = .next t ∧ Clamped t g ∧
      t.ag.agk.toNat = k ∧
      t = (s.setLatch g t.ag.agk).setAnchors t.ag.searchX t.ag.searchY t.ag.baseX t.ag.baseY)

/-- The anchors of a walk keep the kernels inside the plane. R207. When a geometry fits the plane and the
nominal position is within its walk, the anchors of R200 satisfy the bounds of R207 on both axes: P1 keeps the
search anchor in R..dim-R-4, the base anchor in 0..dim-4 and the two within R; P2A keeps them equal, in
2..dim-5; P2B keeps the search anchor in 2..dim-6, the base anchor in 1..dim-5 and the two within 1. -/
def Obligations.AnchorsStayInBounds : Prop :=
  ∀ (s : State) (g : Geometry) (k : Nat), geomOk s.cfg g k = true → inWalk s g k = true → Clamped s g →
    let r := s.cfg.modeR1.toNat
    let bound := fun search base dim : Nat =>
      match g with
      | .p1 => r ≤ search ∧ search + r + 4 ≤ dim ∧ base + 4 ≤ dim ∧
          ((base : Int) - search).natAbs ≤ r
      | .p2a => search = base ∧ 2 ≤ base ∧ base + 5 ≤ dim
      | .p2b => 2 ≤ search ∧ search + 6 ≤ dim ∧ 1 ≤ base ∧ base + 5 ≤ dim ∧
          ((base : Int) - search).natAbs ≤ 1
    bound s.ag.searchX.toNat s.ag.baseX.toNat s.cfg.width.toNat ∧
    bound s.ag.searchY.toNat s.ag.baseY.toNat s.cfg.height.toNat

/-- A walk visits exactly the tiles of R206, row by row. R206, R200, R204. From a state with no fault recorded
and a geometry that fits, after AGSTART and n times AGNEXT, with n below the number of tiles across times
down, AGDONE is 0, no fault is recorded, TX is the start plus 4 times the remainder and TY the start plus 4
times the quotient of n by the tiles across; after as many AGNEXT as there are tiles, AGDONE is 1 and no fault
is recorded. -/
def Obligations.WalksVisitTheirTiles : Prop :=
  ∀ (g : Geometry) (k : Nat) (s : State), Running s → walkOk g k = true → geomOk s.cfg g k = true →
    let nx := tilesAcross g k s.cfg
    let ny := tilesDown g k s.cfg
    let after := fun n => execSeq (.agstart g k :: List.replicate n .agnext) s
    (∀ n, n < nx * ny → (after n).ag.agdone = false ∧ Running (after n) ∧
      (after n).ag.tx.toNat = (walkStart g k).1 + 4 * (n % nx) ∧
      (after n).ag.ty.toNat = (walkStart g k).2 + 4 * (n / nx)) ∧
    (after (nx * ny)).ag.agdone = true ∧ Running (after (nx * ny))

/-- TILE1 without temporal mode completes at every clamped tile and is its sequence of commands. R210, R212,
R207, R185. With MODE.R1 below 2 TILE1 records CFG and changes nothing else. With no fault recorded, source
and destination mapped, the table built, a plane that fits P1, anchors as P1 clamps them and temporal mode
off, TILE1 ends without a fault in the state that DEVL, THRESH and then AFILT R1 (adaptive radius at an exact
tile) or FILT R1 reach; it changes only datapath registers (DEVP, DEVN, WW, RESID kept) and the base block,
and WACC is 1..49. -/
def Obligations.Tile1SpatialCompletes : Prop :=
  ∀ s : State,
    (s.cfg.modeR1.toNat < 2 → exec .tile1 s = .next (takeFault s .cfg (encode .tile1))) ∧
    (LaunchReady s → geomOk s.cfg .p1 0 = true → Clamped s .p1 → modeT s.cfg = false →
      ∃ t, exec .tile1 s = .next t ∧ t = execSeq (spatialCommands s) s ∧ Running t ∧
        SameButData s t ∧ SpatialKeeps s.dp t.dp ∧
        t.dp.thr.toNat = max 1 (min (t.dp.dev.toNat * s.cfg.lambda.toNat / 2 ^ 10) s.cfg.tmax.toNat) ∧
        1 ≤ t.dp.wacc.toNat ∧ t.dp.wacc.toNat ≤ 49 ∧
        ∀ a, OutsideBase s a → t.byteAt a = s.byteAt a)

/-- TILE1 in temporal mode completes wherever the search and base anchors agree and is its sequence of
commands. R210, R211, R185, R286. With no fault recorded, the four planes mapped, the destination apart from
the three others, the table built, a plane that fits P1, anchors as P1 clamps them and equal, and temporal
mode on, TILE1 ends without a fault: it reaches the state of DEVL, BSAD PREV, BSAD NEXT, DMIN, THRESH, FILT 0
and then the temporal blends, the first that runs with alpha 1 and a second with alpha 2; it changes only
datapath registers (RESID kept) and the base block. Tiles whose two anchors differ are left out, since WZERO
may happen there (R288, OnlyWzeroStopsAReadyPlane). -/
def Obligations.Tile1TemporalCompletes : Prop :=
  ∀ s : State, LaunchReady s → PlaneMapped s .prev → PlaneMapped s .next →
    DstApart s .src → DstApart s .prev → DstApart s .next →
    geomOk s.cfg .p1 0 = true → Clamped s .p1 → modeT s.cfg = true →
    s.ag.searchX = s.ag.baseX → s.ag.searchY = s.ag.baseY →
      ∃ t, exec .tile1 s = .next t ∧ Running t ∧ SameButData s t ∧ t.dp.resid = s.dp.resid ∧
        (let u := execSeq [.devl, .bsad .prev, .bsad .next, .dmin, .thresh, .filt 0] s
         Running u ∧ t = execSeq (temporalCommands s.cfg.modeR1.toNat u.dp) u) ∧
        ∀ a, OutsideBase s a → t.byteAt a = s.byteAt a

/-- TILE2A blends the block and writes the clipped residual to the weight map. R214, R77, R207. With an
illegal weight map TILE2A records CFG and changes nothing else. With no fault recorded, source, destination
and weight map mapped, the table built, a legal weight map, a plane that fits P2A, a nominal position within
the walk, anchors as P2A clamps them and THR at least 1, it ends without a fault: PACK P2A_ALPHA and DFILT,
then the entry (TX >> 2, TY >> 2) of the weight map becomes min(RESID, 255); nothing else changes. -/
def Obligations.Tile2aFillsTheWeightMap : Prop :=
  ∀ s : State,
    let entry := s.cfg.wmapBase.toNat + s.ag.ty.toNat / 4 * s.cfg.wmapStride.toNat + s.ag.tx.toNat / 4
    (wmapOk s.cfg = false → exec .tile2a s = .next (takeFault s .cfg (encode .tile2a))) ∧
    (LaunchReady s → WmapMapped s → wmapOk s.cfg = true → geomOk s.cfg .p2a 0 = true →
      inWalk s .p2a 0 = true → Clamped s .p2a → 1 ≤ s.dp.thr.toNat →
        ∃ t, exec .tile2a s = .next t ∧ SameButData s t ∧
          (let u := execSeq [.pack s.plat.p2aAlpha, .dfilt] s
           Running u ∧ t.dp = u.dp ∧ ∀ a, a ≠ entry → t.byteAt a = u.byteAt a) ∧
          (t.byteAt entry).toNat = min t.dp.resid.toNat 255 ∧
          ∀ a, OutsideBase s a → a ≠ entry → t.byteAt a = s.byteAt a)

/-- TILE2B skips a tile whose weight is below TP1 and refines it otherwise. R215, R77, R207. Without a latched
P2B walk, or with an illegal weight map, TILE2B records CFG and changes nothing else. With both and a readable
entry (TX >> 2, TY >> 2): if the entry is below TP1 nothing at all changes; otherwise, with no fault recorded,
source and destination mapped, the table built, a plane that fits P2B, a nominal position within the walk,
anchors as P2B clamps them and THR at least 1, it ends without a fault in the state that PACK AGK and OFILT 2,
SRC reach, changing only datapath registers and the base block. -/
def Obligations.Tile2bRefinesOrSkips : Prop :=
  ∀ s : State,
    let k := s.ag.agk.toNat
    (s.ag.agg ≠ .p2b ∨ wmapOk s.cfg = false →
      exec .tile2b s = .next (takeFault s .cfg (encode .tile2b))) ∧
    (∀ a, s.ag.agg = .p2b → tileEntry s = .ok a → s.inMemDom a = true →
      ((s.byteAt a).toNat < s.cfg.tp1.toNat → exec .tile2b s = .next s) ∧
      (s.cfg.tp1.toNat ≤ (s.byteAt a).toNat → LaunchReady s → geomOk s.cfg .p2b k = true →
        inWalk s .p2b k = true → Clamped s .p2b → 1 ≤ s.dp.thr.toNat →
          ∃ t, exec .tile2b s = .next t ∧ t = execSeq [.pack k, .ofilt 2 .src] s ∧ Running t ∧
            SameButData s t ∧ ∀ a, OutsideBase s a → t.byteAt a = s.byteAt a))

/-- PASS1 without temporal mode completes on every ready plane. R216, R213, R252, R286. If the strides or the
geometry do not fit, PASS1 records CFG and changes nothing else. With no fault recorded, source and
destination mapped, the table built, strides and plane that fit and temporal mode off, PASS1 ends without a
fault and with AGDONE = 1; configuration, table, platform and host actions are unchanged, and so is every byte
outside the destination. Temporal mode is the subject of OnlyWzeroStopsAReadyPlane and PassesAreTheirTiles. -/
def Obligations.Pass1Completes : Prop :=
  ∀ s : State,
    (planeOk s.cfg (modeT s.cfg) = false ∨ geomOk s.cfg .p1 0 = false →
      exec .pass1 s = .next (takeFault s .cfg (encode .pass1))) ∧
    (LaunchReady s → planeOk s.cfg false = true → geomOk s.cfg .p1 0 = true → modeT s.cfg = false →
      ∃ t, exec .pass1 s = .next t ∧ SameButScan s t ∧ t.ag.agdone = true ∧
        ∀ a, OutsideDst s.cfg a → t.byteAt a = s.byteAt a)

/-- PASS2A and PASS2B complete on every ready plane. R217, R218, R213, R252, R286. If the strides or the
weight map do not fit, each of them records CFG and changes nothing else. With no fault recorded, source,
destination and weight map mapped, the table built, strides and weight map that fit and a plane of at least 6
by 6 (PASS2A) or 8 by 8 (PASS2B), each ends without a fault, with AGDONE = 1 and THR = max(1, TMAX);
configuration, table, platform and host actions are unchanged, and so is every byte outside the destination
and, for PASS2A, the weight map. -/
def Obligations.Pass2Completes : Prop :=
  ∀ (i : Instr) (s : State), i = .pass2a ∨ i = .pass2b →
    (planeOk s.cfg false = false ∨ wmapOk s.cfg = false →
      exec i s = .next (takeFault s .cfg (encode i))) ∧
    (LaunchReady s → WmapMapped s → planeOk s.cfg false = true → wmapOk s.cfg = true →
      (if i = .pass2a then 6 else 8) ≤ s.cfg.width.toNat →
      (if i = .pass2a then 6 else 8) ≤ s.cfg.height.toNat →
        ∃ t, exec i s = .next t ∧ SameButScan s t ∧ t.ag.agdone = true ∧
          t.dp.thr.toNat = max 1 s.cfg.tmax.toNat ∧
          ∀ a, OutsideDst s.cfg a → (i = .pass2a → OutsideWmap s.cfg a) → t.byteAt a = s.byteAt a)

/-- RUNPLANE is refused whole or runs PASS1 and, in overlapping mode, PASS2A and PASS2B. R219, R83, R253,
R286. If some configuration check fails, RUNPLANE records CFG and changes nothing else. Otherwise, with no
fault recorded, it reaches the state that PASS1 and, in adaptive-overlapping mode, PASS2A and PASS2B reach
when issued in this order up to a first fault, but for FINFO; and with source and destination mapped, the
table built, the weight map mapped if it is used and temporal mode off, no fault is recorded. -/
def Obligations.RunplaneRunsItsPasses : Prop :=
  ∀ s : State,
    (runplaneOk s.cfg = false → exec .runplane s = .next (takeFault s .cfg (encode .runplane))) ∧
    (runplaneOk s.cfg = true → Running s →
      ∃ t, exec .runplane s = .next t ∧ SameButFinfo t (execSeq (planeCommands s.cfg) s) ∧
        (LaunchReady s → modeT s.cfg = false → (modeAO s.cfg = true → WmapMapped s) →
          SameButScan s t))

/-- On a ready plane RUNPLANE can record only WZERO, and only in temporal mode; TILE1 can record it there.
R252, R288, R261. With no fault recorded, every plane in use and the weight map if used mapped, the table
built and all configuration checks met, RUNPLANE leaves the fault record as it is, or temporal mode is on and
it records FAULT = 1, CAUSE = 6 (WZERO) and its own word in FINFO. And a ready state exists with legal
register contents (so with CAUSE = 0 and FINFO = 0 before), temporal mode on, the destination apart from the
other planes and anchors as P1 clamps them, in which TILE1 records FAULT = 1, CAUSE = 6 and its own word in
FINFO. -/
def Obligations.OnlyWzeroStopsAReadyPlane : Prop :=
  (∀ s t : State, LaunchReady s → (modeT s.cfg = true → PlaneMapped s .prev ∧ PlaneMapped s .next) →
    (modeAO s.cfg = true → WmapMapped s) → runplaneOk s.cfg = true → exec .runplane s = .next t →
      t.flt = s.flt ∨
        (modeT s.cfg = true ∧ t.flt = { fault := true, cause := 6, finfo := encode .runplane })) ∧
  ∃ s t : State, LaunchReady s ∧ RegistersLegal s ∧ modeT s.cfg = true ∧ PlaneMapped s .prev ∧
    PlaneMapped s .next ∧ DstApart s .src ∧ DstApart s .prev ∧ DstApart s .next ∧
    geomOk s.cfg .p1 0 = true ∧ Clamped s .p1 ∧
    exec .tile1 s = .next t ∧ t.flt = { fault := true, cause := 6, finfo := encode .tile1 }

/-- A pass reaches the state of its tile commands issued one by one; on a plane too small for P2A or P2B this
rests on the model's choice (log entry 15). R221, R216, R217, R218, R253. With no fault recorded and strides
that fit, PASS1 reaches the state that AGSTART P1 and, once per tile of the walk, TILE1 and AGNEXT reach when
issued one by one up to a first fault, but for FINFO, which holds the word of the command the host issued;
likewise, with a legal weight map, PASS2A with TILE2A, and PASS2B with TILE2B over the sweeps k = 1..8 in
order, after THR is set to max(1, TMAX). Where the plane is too small for P2A or P2B, so that AGSTART records
CFG, this says that THR = max(1, TMAX) stays written: that is the model's choice (log entry 15, DEDUCED), by
the order of the pseudocode of R217 and R218, beside the words of R201 and R257 that such an operation changes
nothing. -/
def Obligations.PassesAreTheirTiles : Prop :=
  ∀ s : State, Running s →
    (planeOk s.cfg (modeT s.cfg) = true → ∃ t, exec .pass1 s = .next t ∧
      SameButFinfo t (execSeq (walkCommands .p1 0 .tile1 s.cfg) s)) ∧
    (planeOk s.cfg false = true → wmapOk s.cfg = true →
      (∃ t, exec .pass2a s = .next t ∧ SameButFinfo t
        (execSeq (walkCommands .p2a 0 .tile2a s.cfg) (s.setThr (capValue s.cfg.tmax)))) ∧
      ∃ t, exec .pass2b s = .next t ∧ SameButFinfo t
        (execSeq ([1, 2, 3, 4, 5, 6, 7, 8].flatMap fun k => walkCommands .p2b k .tile2b s.cfg)
          (s.setThr (capValue s.cfg.tmax))))

/-- PASS1 writes every destination sample, or stops at a fault. R216, R208. If PASS1 ends with no fault
recorded, memory lists a written byte at the address of every sample of the destination plane; and it does end
so from a ready state with strides and plane that fit and temporal mode off. That memory lists exactly the
written bytes is the model's form (log entry 4). -/
def Obligations.Pass1WritesTheWholePlane : Prop :=
  ∀ s : State, ∃ t, exec .pass1 s = .next t ∧
    (Running t → ∀ x, x < s.cfg.width.toNat → ∀ y, y < s.cfg.height.toNat →
      (memFind t.mem (linearAddr s.cfg .dst x y)).isSome = true) ∧
    (LaunchReady s → planeOk s.cfg false = true → geomOk s.cfg .p1 0 = true → modeT s.cfg = false →
      Running t)

/-- PASS1 copies a uniform plane. R169, R181, R182, R216. With no fault recorded, source and destination
mapped, a legally built table, strides and plane that fit, temporal mode off and every source sample equal to
v, PASS1 ends without a fault and every destination sample is v. -/
def Obligations.UniformPlaneIsUnchanged : Prop :=
  ∀ (s : State) (v : Byte), LaunchReady s → TableLegal s → planeOk s.cfg false = true →
    geomOk s.cfg .p1 0 = true → modeT s.cfg = false →
    (∀ x, x < s.cfg.width.toNat → ∀ y, y < s.cfg.height.toNat →
      s.byteAt (linearAddr s.cfg .src x y) = v) →
      ∃ t, exec .pass1 s = .next t ∧ Running t ∧
        ∀ x, x < s.cfg.width.toNat → ∀ y, y < s.cfg.height.toNat →
          t.byteAt (linearAddr s.cfg .dst x y) = v

/-- Pass 2 never writes the first or last column or row of the destination. R220. Whatever PASS2A or PASS2B
does, with a fault or without, every destination sample in column 0, row 0, the last column or the last row
reads as before, unless, for PASS2A, its byte is also an entry of the weight map. -/
def Obligations.Pass2KeepsTheEdges : Prop :=
  ∀ (i : Instr) (s t : State), i = .pass2a ∨ i = .pass2b → exec i s = .next t →
    ∀ x, x < s.cfg.width.toNat → ∀ y, y < s.cfg.height.toNat →
      x = 0 ∨ y = 0 ∨ x + 1 = s.cfg.width.toNat ∨ y + 1 = s.cfg.height.toNat →
      (i = .pass2a → OutsideWmap s.cfg (linearAddr s.cfg .dst x y)) →
        t.byteAt (linearAddr s.cfg .dst x y) = s.byteAt (linearAddr s.cfg .dst x y)

end
end

