-- ==== Sys2Proof/Laws/State.lean ====
section
/-! SUPPORT. One lemma for each register update and each field: what the update leaves in it. -/

namespace Sys2Proof.Machine

/-! `setSadr` -/

@[simp] theorem State.setSadr_cfg (s : State) (v : BitVec 12) : (s.setSadr v).cfg = s.cfg := rfl
@[simp] theorem State.setSadr_ag (s : State) (v : BitVec 12) : (s.setSadr v).ag = s.ag := rfl
@[simp] theorem State.setSadr_tab (s : State) (v : BitVec 12) : (s.setSadr v).tab = s.tab := rfl
@[simp] theorem State.setSadr_flt (s : State) (v : BitVec 12) : (s.setSadr v).flt = s.flt := rfl
@[simp] theorem State.setSadr_mem (s : State) (v : BitVec 12) : (s.setSadr v).mem = s.mem := rfl
@[simp] theorem State.setSadr_plat (s : State) (v : BitVec 12) : (s.setSadr v).plat = s.plat := rfl
@[simp] theorem State.setSadr_port (s : State) (v : BitVec 12) : (s.setSadr v).port = s.port := rfl
@[simp] theorem State.setSadr_reply (s : State) (v : BitVec 12) : (s.setSadr v).reply = s.reply := rfl
@[simp] theorem State.setSadr_dp_thr (s : State) (v : BitVec 12) :
    (s.setSadr v).dp.thr = s.dp.thr := rfl
@[simp] theorem State.setSadr_dp_dev (s : State) (v : BitVec 12) :
    (s.setSadr v).dp.dev = s.dp.dev := rfl
@[simp] theorem State.setSadr_dp_devp (s : State) (v : BitVec 12) :
    (s.setSadr v).dp.devp = s.dp.devp := rfl
@[simp] theorem State.setSadr_dp_devn (s : State) (v : BitVec 12) :
    (s.setSadr v).dp.devn = s.dp.devn := rfl
@[simp] theorem State.setSadr_dp_sadr (s : State) (v : BitVec 12) :
    (s.setSadr v).dp.sadr = v := rfl
@[simp] theorem State.setSadr_dp_ssum (s : State) (v : BitVec 12) :
    (s.setSadr v).dp.ssum = s.dp.ssum := rfl
@[simp] theorem State.setSadr_dp_mask (s : State) (v : BitVec 12) :
    (s.setSadr v).dp.mask = s.dp.mask := rfl
@[simp] theorem State.setSadr_dp_acc (s : State) (v : BitVec 12) :
    (s.setSadr v).dp.acc = s.dp.acc := rfl
@[simp] theorem State.setSadr_dp_wacc (s : State) (v : BitVec 12) :
    (s.setSadr v).dp.wacc = s.dp.wacc := rfl
@[simp] theorem State.setSadr_dp_ww (s : State) (v : BitVec 12) :
    (s.setSadr v).dp.ww = s.dp.ww := rfl
@[simp] theorem State.setSadr_dp_resid (s : State) (v : BitVec 12) :
    (s.setSadr v).dp.resid = s.dp.resid := rfl

/-! `setSsum` -/

@[simp] theorem State.setSsum_cfg (s : State) (v : Word) : (s.setSsum v).cfg = s.cfg := rfl
@[simp] theorem State.setSsum_ag (s : State) (v : Word) : (s.setSsum v).ag = s.ag := rfl
@[simp] theorem State.setSsum_tab (s : State) (v : Word) : (s.setSsum v).tab = s.tab := rfl
@[simp] theorem State.setSsum_flt (s : State) (v : Word) : (s.setSsum v).flt = s.flt := rfl
@[simp] theorem State.setSsum_mem (s : State) (v : Word) : (s.setSsum v).mem = s.mem := rfl
@[simp] theorem State.setSsum_plat (s : State) (v : Word) : (s.setSsum v).plat = s.plat := rfl
@[simp] theorem State.setSsum_port (s : State) (v : Word) : (s.setSsum v).port = s.port := rfl
@[simp] theorem State.setSsum_reply (s : State) (v : Word) : (s.setSsum v).reply = s.reply := rfl
@[simp] theorem State.setSsum_dp_thr (s : State) (v : Word) :
    (s.setSsum v).dp.thr = s.dp.thr := rfl
@[simp] theorem State.setSsum_dp_dev (s : State) (v : Word) :
    (s.setSsum v).dp.dev = s.dp.dev := rfl
@[simp] theorem State.setSsum_dp_devp (s : State) (v : Word) :
    (s.setSsum v).dp.devp = s.dp.devp := rfl
@[simp] theorem State.setSsum_dp_devn (s : State) (v : Word) :
    (s.setSsum v).dp.devn = s.dp.devn := rfl
@[simp] theorem State.setSsum_dp_sadr (s : State) (v : Word) :
    (s.setSsum v).dp.sadr = s.dp.sadr := rfl
@[simp] theorem State.setSsum_dp_ssum (s : State) (v : Word) :
    (s.setSsum v).dp.ssum = v := rfl
@[simp] theorem State.setSsum_dp_mask (s : State) (v : Word) :
    (s.setSsum v).dp.mask = s.dp.mask := rfl
@[simp] theorem State.setSsum_dp_acc (s : State) (v : Word) :
    (s.setSsum v).dp.acc = s.dp.acc := rfl
@[simp] theorem State.setSsum_dp_wacc (s : State) (v : Word) :
    (s.setSsum v).dp.wacc = s.dp.wacc := rfl
@[simp] theorem State.setSsum_dp_ww (s : State) (v : Word) :
    (s.setSsum v).dp.ww = s.dp.ww := rfl
@[simp] theorem State.setSsum_dp_resid (s : State) (v : Word) :
    (s.setSsum v).dp.resid = s.dp.resid := rfl

/-! `setMask` -/

@[simp] theorem State.setMask_cfg (s : State) (v : Bool) : (s.setMask v).cfg = s.cfg := rfl
@[simp] theorem State.setMask_ag (s : State) (v : Bool) : (s.setMask v).ag = s.ag := rfl
@[simp] theorem State.setMask_tab (s : State) (v : Bool) : (s.setMask v).tab = s.tab := rfl
@[simp] theorem State.setMask_flt (s : State) (v : Bool) : (s.setMask v).flt = s.flt := rfl
@[simp] theorem State.setMask_mem (s : State) (v : Bool) : (s.setMask v).mem = s.mem := rfl
@[simp] theorem State.setMask_plat (s : State) (v : Bool) : (s.setMask v).plat = s.plat := rfl
@[simp] theorem State.setMask_port (s : State) (v : Bool) : (s.setMask v).port = s.port := rfl
@[simp] theorem State.setMask_reply (s : State) (v : Bool) : (s.setMask v).reply = s.reply := rfl
@[simp] theorem State.setMask_dp_thr (s : State) (v : Bool) :
    (s.setMask v).dp.thr = s.dp.thr := rfl
@[simp] theorem State.setMask_dp_dev (s : State) (v : Bool) :
    (s.setMask v).dp.dev = s.dp.dev := rfl
@[simp] theorem State.setMask_dp_devp (s : State) (v : Bool) :
    (s.setMask v).dp.devp = s.dp.devp := rfl
@[simp] theorem State.setMask_dp_devn (s : State) (v : Bool) :
    (s.setMask v).dp.devn = s.dp.devn := rfl
@[simp] theorem State.setMask_dp_sadr (s : State) (v : Bool) :
    (s.setMask v).dp.sadr = s.dp.sadr := rfl
@[simp] theorem State.setMask_dp_ssum (s : State) (v : Bool) :
    (s.setMask v).dp.ssum = s.dp.ssum := rfl
@[simp] theorem State.setMask_dp_mask (s : State) (v : Bool) :
    (s.setMask v).dp.mask = v := rfl
@[simp] theorem State.setMask_dp_acc (s : State) (v : Bool) :
    (s.setMask v).dp.acc = s.dp.acc := rfl
@[simp] theorem State.setMask_dp_wacc (s : State) (v : Bool) :
    (s.setMask v).dp.wacc = s.dp.wacc := rfl
@[simp] theorem State.setMask_dp_ww (s : State) (v : Bool) :
    (s.setMask v).dp.ww = s.dp.ww := rfl
@[simp] theorem State.setMask_dp_resid (s : State) (v : Bool) :
    (s.setMask v).dp.resid = s.dp.resid := rfl

/-! `setWacc` -/

@[simp] theorem State.setWacc_cfg (s : State) (v : BitVec 10) : (s.setWacc v).cfg = s.cfg := rfl
@[simp] theorem State.setWacc_ag (s : State) (v : BitVec 10) : (s.setWacc v).ag = s.ag := rfl
@[simp] theorem State.setWacc_tab (s : State) (v : BitVec 10) : (s.setWacc v).tab = s.tab := rfl
@[simp] theorem State.setWacc_flt (s : State) (v : BitVec 10) : (s.setWacc v).flt = s.flt := rfl
@[simp] theorem State.setWacc_mem (s : State) (v : BitVec 10) : (s.setWacc v).mem = s.mem := rfl
@[simp] theorem State.setWacc_plat (s : State) (v : BitVec 10) : (s.setWacc v).plat = s.plat := rfl
@[simp] theorem State.setWacc_port (s : State) (v : BitVec 10) : (s.setWacc v).port = s.port := rfl
@[simp] theorem State.setWacc_reply (s : State) (v : BitVec 10) : (s.setWacc v).reply = s.reply := rfl
@[simp] theorem State.setWacc_dp_thr (s : State) (v : BitVec 10) :
    (s.setWacc v).dp.thr = s.dp.thr := rfl
@[simp] theorem State.setWacc_dp_dev (s : State) (v : BitVec 10) :
    (s.setWacc v).dp.dev = s.dp.dev := rfl
@[simp] theorem State.setWacc_dp_devp (s : State) (v : BitVec 10) :
    (s.setWacc v).dp.devp = s.dp.devp := rfl
@[simp] theorem State.setWacc_dp_devn (s : State) (v : BitVec 10) :
    (s.setWacc v).dp.devn = s.dp.devn := rfl
@[simp] theorem State.setWacc_dp_sadr (s : State) (v : BitVec 10) :
    (s.setWacc v).dp.sadr = s.dp.sadr := rfl
@[simp] theorem State.setWacc_dp_ssum (s : State) (v : BitVec 10) :
    (s.setWacc v).dp.ssum = s.dp.ssum := rfl
@[simp] theorem State.setWacc_dp_mask (s : State) (v : BitVec 10) :
    (s.setWacc v).dp.mask = s.dp.mask := rfl
@[simp] theorem State.setWacc_dp_acc (s : State) (v : BitVec 10) :
    (s.setWacc v).dp.acc = s.dp.acc := rfl
@[simp] theorem State.setWacc_dp_wacc (s : State) (v : BitVec 10) :
    (s.setWacc v).dp.wacc = v := rfl
@[simp] theorem State.setWacc_dp_ww (s : State) (v : BitVec 10) :
    (s.setWacc v).dp.ww = s.dp.ww := rfl
@[simp] theorem State.setWacc_dp_resid (s : State) (v : BitVec 10) :
    (s.setWacc v).dp.resid = s.dp.resid := rfl

/-! `setAcc` -/

@[simp] theorem State.setAcc_cfg (s : State) (v : Block Half) : (s.setAcc v).cfg = s.cfg := rfl
@[simp] theorem State.setAcc_ag (s : State) (v : Block Half) : (s.setAcc v).ag = s.ag := rfl
@[simp] theorem State.setAcc_tab (s : State) (v : Block Half) : (s.setAcc v).tab = s.tab := rfl
@[simp] theorem State.setAcc_flt (s : State) (v : Block Half) : (s.setAcc v).flt = s.flt := rfl
@[simp] theorem State.setAcc_mem (s : State) (v : Block Half) : (s.setAcc v).mem = s.mem := rfl
@[simp] theorem State.setAcc_plat (s : State) (v : Block Half) : (s.setAcc v).plat = s.plat := rfl
@[simp] theorem State.setAcc_port (s : State) (v : Block Half) : (s.setAcc v).port = s.port := rfl
@[simp] theorem State.setAcc_reply (s : State) (v : Block Half) : (s.setAcc v).reply = s.reply := rfl
@[simp] theorem State.setAcc_dp_thr (s : State) (v : Block Half) :
    (s.setAcc v).dp.thr = s.dp.thr := rfl
@[simp] theorem State.setAcc_dp_dev (s : State) (v : Block Half) :
    (s.setAcc v).dp.dev = s.dp.dev := rfl
@[simp] theorem State.setAcc_dp_devp (s : State) (v : Block Half) :
    (s.setAcc v).dp.devp = s.dp.devp := rfl
@[simp] theorem State.setAcc_dp_devn (s : State) (v : Block Half) :
    (s.setAcc v).dp.devn = s.dp.devn := rfl
@[simp] theorem State.setAcc_dp_sadr (s : State) (v : Block Half) :
    (s.setAcc v).dp.sadr = s.dp.sadr := rfl
@[simp] theorem State.setAcc_dp_ssum (s : State) (v : Block Half) :
    (s.setAcc v).dp.ssum = s.dp.ssum := rfl
@[simp] theorem State.setAcc_dp_mask (s : State) (v : Block Half) :
    (s.setAcc v).dp.mask = s.dp.mask := rfl
@[simp] theorem State.setAcc_dp_acc (s : State) (v : Block Half) :
    (s.setAcc v).dp.acc = v := rfl
@[simp] theorem State.setAcc_dp_wacc (s : State) (v : Block Half) :
    (s.setAcc v).dp.wacc = s.dp.wacc := rfl
@[simp] theorem State.setAcc_dp_ww (s : State) (v : Block Half) :
    (s.setAcc v).dp.ww = s.dp.ww := rfl
@[simp] theorem State.setAcc_dp_resid (s : State) (v : Block Half) :
    (s.setAcc v).dp.resid = s.dp.resid := rfl

/-! `setDev` -/

@[simp] theorem State.setDev_cfg (s : State) (v : Half) : (s.setDev v).cfg = s.cfg := rfl
@[simp] theorem State.setDev_ag (s : State) (v : Half) : (s.setDev v).ag = s.ag := rfl
@[simp] theorem State.setDev_tab (s : State) (v : Half) : (s.setDev v).tab = s.tab := rfl
@[simp] theorem State.setDev_flt (s : State) (v : Half) : (s.setDev v).flt = s.flt := rfl
@[simp] theorem State.setDev_mem (s : State) (v : Half) : (s.setDev v).mem = s.mem := rfl
@[simp] theorem State.setDev_plat (s : State) (v : Half) : (s.setDev v).plat = s.plat := rfl
@[simp] theorem State.setDev_port (s : State) (v : Half) : (s.setDev v).port = s.port := rfl
@[simp] theorem State.setDev_reply (s : State) (v : Half) : (s.setDev v).reply = s.reply := rfl
@[simp] theorem State.setDev_dp_thr (s : State) (v : Half) :
    (s.setDev v).dp.thr = s.dp.thr := rfl
@[simp] theorem State.setDev_dp_dev (s : State) (v : Half) :
    (s.setDev v).dp.dev = v := rfl
@[simp] theorem State.setDev_dp_devp (s : State) (v : Half) :
    (s.setDev v).dp.devp = s.dp.devp := rfl
@[simp] theorem State.setDev_dp_devn (s : State) (v : Half) :
    (s.setDev v).dp.devn = s.dp.devn := rfl
@[simp] theorem State.setDev_dp_sadr (s : State) (v : Half) :
    (s.setDev v).dp.sadr = s.dp.sadr := rfl
@[simp] theorem State.setDev_dp_ssum (s : State) (v : Half) :
    (s.setDev v).dp.ssum = s.dp.ssum := rfl
@[simp] theorem State.setDev_dp_mask (s : State) (v : Half) :
    (s.setDev v).dp.mask = s.dp.mask := rfl
@[simp] theorem State.setDev_dp_acc (s : State) (v : Half) :
    (s.setDev v).dp.acc = s.dp.acc := rfl
@[simp] theorem State.setDev_dp_wacc (s : State) (v : Half) :
    (s.setDev v).dp.wacc = s.dp.wacc := rfl
@[simp] theorem State.setDev_dp_ww (s : State) (v : Half) :
    (s.setDev v).dp.ww = s.dp.ww := rfl
@[simp] theorem State.setDev_dp_resid (s : State) (v : Half) :
    (s.setDev v).dp.resid = s.dp.resid := rfl

/-! `setDevp` -/

@[simp] theorem State.setDevp_cfg (s : State) (v : Half) : (s.setDevp v).cfg = s.cfg := rfl
@[simp] theorem State.setDevp_ag (s : State) (v : Half) : (s.setDevp v).ag = s.ag := rfl
@[simp] theorem State.setDevp_tab (s : State) (v : Half) : (s.setDevp v).tab = s.tab := rfl
@[simp] theorem State.setDevp_flt (s : State) (v : Half) : (s.setDevp v).flt = s.flt := rfl
@[simp] theorem State.setDevp_mem (s : State) (v : Half) : (s.setDevp v).mem = s.mem := rfl
@[simp] theorem State.setDevp_plat (s : State) (v : Half) : (s.setDevp v).plat = s.plat := rfl
@[simp] theorem State.setDevp_port (s : State) (v : Half) : (s.setDevp v).port = s.port := rfl
@[simp] theorem State.setDevp_reply (s : State) (v : Half) : (s.setDevp v).reply = s.reply := rfl
@[simp] theorem State.setDevp_dp_thr (s : State) (v : Half) :
    (s.setDevp v).dp.thr = s.dp.thr := rfl
@[simp] theorem State.setDevp_dp_dev (s : State) (v : Half) :
    (s.setDevp v).dp.dev = s.dp.dev := rfl
@[simp] theorem State.setDevp_dp_devp (s : State) (v : Half) :
    (s.setDevp v).dp.devp = v := rfl
@[simp] theorem State.setDevp_dp_devn (s : State) (v : Half) :
    (s.setDevp v).dp.devn = s.dp.devn := rfl
@[simp] theorem State.setDevp_dp_sadr (s : State) (v : Half) :
    (s.setDevp v).dp.sadr = s.dp.sadr := rfl
@[simp] theorem State.setDevp_dp_ssum (s : State) (v : Half) :
    (s.setDevp v).dp.ssum = s.dp.ssum := rfl
@[simp] theorem State.setDevp_dp_mask (s : State) (v : Half) :
    (s.setDevp v).dp.mask = s.dp.mask := rfl
@[simp] theorem State.setDevp_dp_acc (s : State) (v : Half) :
    (s.setDevp v).dp.acc = s.dp.acc := rfl
@[simp] theorem State.setDevp_dp_wacc (s : State) (v : Half) :
    (s.setDevp v).dp.wacc = s.dp.wacc := rfl
@[simp] theorem State.setDevp_dp_ww (s : State) (v : Half) :
    (s.setDevp v).dp.ww = s.dp.ww := rfl
@[simp] theorem State.setDevp_dp_resid (s : State) (v : Half) :
    (s.setDevp v).dp.resid = s.dp.resid := rfl

/-! `setDevn` -/

@[simp] theorem State.setDevn_cfg (s : State) (v : Half) : (s.setDevn v).cfg = s.cfg := rfl
@[simp] theorem State.setDevn_ag (s : State) (v : Half) : (s.setDevn v).ag = s.ag := rfl
@[simp] theorem State.setDevn_tab (s : State) (v : Half) : (s.setDevn v).tab = s.tab := rfl
@[simp] theorem State.setDevn_flt (s : State) (v : Half) : (s.setDevn v).flt = s.flt := rfl
@[simp] theorem State.setDevn_mem (s : State) (v : Half) : (s.setDevn v).mem = s.mem := rfl
@[simp] theorem State.setDevn_plat (s : State) (v : Half) : (s.setDevn v).plat = s.plat := rfl
@[simp] theorem State.setDevn_port (s : State) (v : Half) : (s.setDevn v).port = s.port := rfl
@[simp] theorem State.setDevn_reply (s : State) (v : Half) : (s.setDevn v).reply = s.reply := rfl
@[simp] theorem State.setDevn_dp_thr (s : State) (v : Half) :
    (s.setDevn v).dp.thr = s.dp.thr := rfl
@[simp] theorem State.setDevn_dp_dev (s : State) (v : Half) :
    (s.setDevn v).dp.dev = s.dp.dev := rfl
@[simp] theorem State.setDevn_dp_devp (s : State) (v : Half) :
    (s.setDevn v).dp.devp = s.dp.devp := rfl
@[simp] theorem State.setDevn_dp_devn (s : State) (v : Half) :
    (s.setDevn v).dp.devn = v := rfl
@[simp] theorem State.setDevn_dp_sadr (s : State) (v : Half) :
    (s.setDevn v).dp.sadr = s.dp.sadr := rfl
@[simp] theorem State.setDevn_dp_ssum (s : State) (v : Half) :
    (s.setDevn v).dp.ssum = s.dp.ssum := rfl
@[simp] theorem State.setDevn_dp_mask (s : State) (v : Half) :
    (s.setDevn v).dp.mask = s.dp.mask := rfl
@[simp] theorem State.setDevn_dp_acc (s : State) (v : Half) :
    (s.setDevn v).dp.acc = s.dp.acc := rfl
@[simp] theorem State.setDevn_dp_wacc (s : State) (v : Half) :
    (s.setDevn v).dp.wacc = s.dp.wacc := rfl
@[simp] theorem State.setDevn_dp_ww (s : State) (v : Half) :
    (s.setDevn v).dp.ww = s.dp.ww := rfl
@[simp] theorem State.setDevn_dp_resid (s : State) (v : Half) :
    (s.setDevn v).dp.resid = s.dp.resid := rfl

/-! `setThr` -/

@[simp] theorem State.setThr_cfg (s : State) (v : Half) : (s.setThr v).cfg = s.cfg := rfl
@[simp] theorem State.setThr_ag (s : State) (v : Half) : (s.setThr v).ag = s.ag := rfl
@[simp] theorem State.setThr_tab (s : State) (v : Half) : (s.setThr v).tab = s.tab := rfl
@[simp] theorem State.setThr_flt (s : State) (v : Half) : (s.setThr v).flt = s.flt := rfl
@[simp] theorem State.setThr_mem (s : State) (v : Half) : (s.setThr v).mem = s.mem := rfl
@[simp] theorem State.setThr_plat (s : State) (v : Half) : (s.setThr v).plat = s.plat := rfl
@[simp] theorem State.setThr_port (s : State) (v : Half) : (s.setThr v).port = s.port := rfl
@[simp] theorem State.setThr_reply (s : State) (v : Half) : (s.setThr v).reply = s.reply := rfl
@[simp] theorem State.setThr_dp_thr (s : State) (v : Half) :
    (s.setThr v).dp.thr = v := rfl
@[simp] theorem State.setThr_dp_dev (s : State) (v : Half) :
    (s.setThr v).dp.dev = s.dp.dev := rfl
@[simp] theorem State.setThr_dp_devp (s : State) (v : Half) :
    (s.setThr v).dp.devp = s.dp.devp := rfl
@[simp] theorem State.setThr_dp_devn (s : State) (v : Half) :
    (s.setThr v).dp.devn = s.dp.devn := rfl
@[simp] theorem State.setThr_dp_sadr (s : State) (v : Half) :
    (s.setThr v).dp.sadr = s.dp.sadr := rfl
@[simp] theorem State.setThr_dp_ssum (s : State) (v : Half) :
    (s.setThr v).dp.ssum = s.dp.ssum := rfl
@[simp] theorem State.setThr_dp_mask (s : State) (v : Half) :
    (s.setThr v).dp.mask = s.dp.mask := rfl
@[simp] theorem State.setThr_dp_acc (s : State) (v : Half) :
    (s.setThr v).dp.acc = s.dp.acc := rfl
@[simp] theorem State.setThr_dp_wacc (s : State) (v : Half) :
    (s.setThr v).dp.wacc = s.dp.wacc := rfl
@[simp] theorem State.setThr_dp_ww (s : State) (v : Half) :
    (s.setThr v).dp.ww = s.dp.ww := rfl
@[simp] theorem State.setThr_dp_resid (s : State) (v : Half) :
    (s.setThr v).dp.resid = s.dp.resid := rfl

/-! `setWw` -/

@[simp] theorem State.setWw_cfg (s : State) (v : Word) : (s.setWw v).cfg = s.cfg := rfl
@[simp] theorem State.setWw_ag (s : State) (v : Word) : (s.setWw v).ag = s.ag := rfl
@[simp] theorem State.setWw_tab (s : State) (v : Word) : (s.setWw v).tab = s.tab := rfl
@[simp] theorem State.setWw_flt (s : State) (v : Word) : (s.setWw v).flt = s.flt := rfl
@[simp] theorem State.setWw_mem (s : State) (v : Word) : (s.setWw v).mem = s.mem := rfl
@[simp] theorem State.setWw_plat (s : State) (v : Word) : (s.setWw v).plat = s.plat := rfl
@[simp] theorem State.setWw_port (s : State) (v : Word) : (s.setWw v).port = s.port := rfl
@[simp] theorem State.setWw_reply (s : State) (v : Word) : (s.setWw v).reply = s.reply := rfl
@[simp] theorem State.setWw_dp_thr (s : State) (v : Word) :
    (s.setWw v).dp.thr = s.dp.thr := rfl
@[simp] theorem State.setWw_dp_dev (s : State) (v : Word) :
    (s.setWw v).dp.dev = s.dp.dev := rfl
@[simp] theorem State.setWw_dp_devp (s : State) (v : Word) :
    (s.setWw v).dp.devp = s.dp.devp := rfl
@[simp] theorem State.setWw_dp_devn (s : State) (v : Word) :
    (s.setWw v).dp.devn = s.dp.devn := rfl
@[simp] theorem State.setWw_dp_sadr (s : State) (v : Word) :
    (s.setWw v).dp.sadr = s.dp.sadr := rfl
@[simp] theorem State.setWw_dp_ssum (s : State) (v : Word) :
    (s.setWw v).dp.ssum = s.dp.ssum := rfl
@[simp] theorem State.setWw_dp_mask (s : State) (v : Word) :
    (s.setWw v).dp.mask = s.dp.mask := rfl
@[simp] theorem State.setWw_dp_acc (s : State) (v : Word) :
    (s.setWw v).dp.acc = s.dp.acc := rfl
@[simp] theorem State.setWw_dp_wacc (s : State) (v : Word) :
    (s.setWw v).dp.wacc = s.dp.wacc := rfl
@[simp] theorem State.setWw_dp_ww (s : State) (v : Word) :
    (s.setWw v).dp.ww = v := rfl
@[simp] theorem State.setWw_dp_resid (s : State) (v : Word) :
    (s.setWw v).dp.resid = s.dp.resid := rfl

/-! `setResid` -/

@[simp] theorem State.setResid_cfg (s : State) (v : Word) : (s.setResid v).cfg = s.cfg := rfl
@[simp] theorem State.setResid_ag (s : State) (v : Word) : (s.setResid v).ag = s.ag := rfl
@[simp] theorem State.setResid_tab (s : State) (v : Word) : (s.setResid v).tab = s.tab := rfl
@[simp] theorem State.setResid_flt (s : State) (v : Word) : (s.setResid v).flt = s.flt := rfl
@[simp] theorem State.setResid_mem (s : State) (v : Word) : (s.setResid v).mem = s.mem := rfl
@[simp] theorem State.setResid_plat (s : State) (v : Word) : (s.setResid v).plat = s.plat := rfl
@[simp] theorem State.setResid_port (s : State) (v : Word) : (s.setResid v).port = s.port := rfl
@[simp] theorem State.setResid_reply (s : State) (v : Word) : (s.setResid v).reply = s.reply := rfl
@[simp] theorem State.setResid_dp_thr (s : State) (v : Word) :
    (s.setResid v).dp.thr = s.dp.thr := rfl
@[simp] theorem State.setResid_dp_dev (s : State) (v : Word) :
    (s.setResid v).dp.dev = s.dp.dev := rfl
@[simp] theorem State.setResid_dp_devp (s : State) (v : Word) :
    (s.setResid v).dp.devp = s.dp.devp := rfl
@[simp] theorem State.setResid_dp_devn (s : State) (v : Word) :
    (s.setResid v).dp.devn = s.dp.devn := rfl
@[simp] theorem State.setResid_dp_sadr (s : State) (v : Word) :
    (s.setResid v).dp.sadr = s.dp.sadr := rfl
@[simp] theorem State.setResid_dp_ssum (s : State) (v : Word) :
    (s.setResid v).dp.ssum = s.dp.ssum := rfl
@[simp] theorem State.setResid_dp_mask (s : State) (v : Word) :
    (s.setResid v).dp.mask = s.dp.mask := rfl
@[simp] theorem State.setResid_dp_acc (s : State) (v : Word) :
    (s.setResid v).dp.acc = s.dp.acc := rfl
@[simp] theorem State.setResid_dp_wacc (s : State) (v : Word) :
    (s.setResid v).dp.wacc = s.dp.wacc := rfl
@[simp] theorem State.setResid_dp_ww (s : State) (v : Word) :
    (s.setResid v).dp.ww = s.dp.ww := rfl
@[simp] theorem State.setResid_dp_resid (s : State) (v : Word) :
    (s.setResid v).dp.resid = v := rfl

/-! `setTile` -/

@[simp] theorem State.setTile_cfg (s : State) (x y : Word) : (s.setTile x y).cfg = s.cfg := rfl
@[simp] theorem State.setTile_dp (s : State) (x y : Word) : (s.setTile x y).dp = s.dp := rfl
@[simp] theorem State.setTile_tab (s : State) (x y : Word) : (s.setTile x y).tab = s.tab := rfl
@[simp] theorem State.setTile_flt (s : State) (x y : Word) : (s.setTile x y).flt = s.flt := rfl
@[simp] theorem State.setTile_mem (s : State) (x y : Word) : (s.setTile x y).mem = s.mem := rfl
@[simp] theorem State.setTile_plat (s : State) (x y : Word) : (s.setTile x y).plat = s.plat := rfl
@[simp] theorem State.setTile_port (s : State) (x y : Word) : (s.setTile x y).port = s.port := rfl
@[simp] theorem State.setTile_reply (s : State) (x y : Word) : (s.setTile x y).reply = s.reply := rfl
@[simp] theorem State.setTile_ag_tx (s : State) (x y : Word) :
    (s.setTile x y).ag.tx = x := rfl
@[simp] theorem State.setTile_ag_ty (s : State) (x y : Word) :
    (s.setTile x y).ag.ty = y := rfl
@[simp] theorem State.setTile_ag_searchX (s : State) (x y : Word) :
    (s.setTile x y).ag.searchX = s.ag.searchX := rfl
@[simp] theorem State.setTile_ag_searchY (s : State) (x y : Word) :
    (s.setTile x y).ag.searchY = s.ag.searchY := rfl
@[simp] theorem State.setTile_ag_baseX (s : State) (x y : Word) :
    (s.setTile x y).ag.baseX = s.ag.baseX := rfl
@[simp] theorem State.setTile_ag_baseY (s : State) (x y : Word) :
    (s.setTile x y).ag.baseY = s.ag.baseY := rfl
@[simp] theorem State.setTile_ag_agg (s : State) (x y : Word) :
    (s.setTile x y).ag.agg = s.ag.agg := rfl
@[simp] theorem State.setTile_ag_agk (s : State) (x y : Word) :
    (s.setTile x y).ag.agk = s.ag.agk := rfl
@[simp] theorem State.setTile_ag_agdone (s : State) (x y : Word) :
    (s.setTile x y).ag.agdone = s.ag.agdone := rfl

/-! `setAnchors` -/

@[simp] theorem State.setAnchors_cfg (s : State) (a b c d : Word) : (s.setAnchors a b c d).cfg = s.cfg := rfl
@[simp] theorem State.setAnchors_dp (s : State) (a b c d : Word) : (s.setAnchors a b c d).dp = s.dp := rfl
@[simp] theorem State.setAnchors_tab (s : State) (a b c d : Word) : (s.setAnchors a b c d).tab = s.tab := rfl
@[simp] theorem State.setAnchors_flt (s : State) (a b c d : Word) : (s.setAnchors a b c d).flt = s.flt := rfl
@[simp] theorem State.setAnchors_mem (s : State) (a b c d : Word) : (s.setAnchors a b c d).mem = s.mem := rfl
@[simp] theorem State.setAnchors_plat (s : State) (a b c d : Word) : (s.setAnchors a b c d).plat = s.plat := rfl
@[simp] theorem State.setAnchors_port (s : State) (a b c d : Word) : (s.setAnchors a b c d).port = s.port := rfl
@[simp] theorem State.setAnchors_reply (s : State) (a b c d : Word) : (s.setAnchors a b c d).reply = s.reply := rfl
@[simp] theorem State.setAnchors_ag_tx (s : State) (a b c d : Word) :
    (s.setAnchors a b c d).ag.tx = s.ag.tx := rfl
@[simp] theorem State.setAnchors_ag_ty (s : State) (a b c d : Word) :
    (s.setAnchors a b c d).ag.ty = s.ag.ty := rfl
@[simp] theorem State.setAnchors_ag_searchX (s : State) (a b c d : Word) :
    (s.setAnchors a b c d).ag.searchX = a := rfl
@[simp] theorem State.setAnchors_ag_searchY (s : State) (a b c d : Word) :
    (s.setAnchors a b c d).ag.searchY = b := rfl
@[simp] theorem State.setAnchors_ag_baseX (s : State) (a b c d : Word) :
    (s.setAnchors a b c d).ag.baseX = c := rfl
@[simp] theorem State.setAnchors_ag_baseY (s : State) (a b c d : Word) :
    (s.setAnchors a b c d).ag.baseY = d := rfl
@[simp] theorem State.setAnchors_ag_agg (s : State) (a b c d : Word) :
    (s.setAnchors a b c d).ag.agg = s.ag.agg := rfl
@[simp] theorem State.setAnchors_ag_agk (s : State) (a b c d : Word) :
    (s.setAnchors a b c d).ag.agk = s.ag.agk := rfl
@[simp] theorem State.setAnchors_ag_agdone (s : State) (a b c d : Word) :
    (s.setAnchors a b c d).ag.agdone = s.ag.agdone := rfl

/-! `setLatch` -/

@[simp] theorem State.setLatch_cfg (s : State) (g : Geometry) (k : BitVec 4) : (s.setLatch g k).cfg = s.cfg := rfl
@[simp] theorem State.setLatch_dp (s : State) (g : Geometry) (k : BitVec 4) : (s.setLatch g k).dp = s.dp := rfl
@[simp] theorem State.setLatch_tab (s : State) (g : Geometry) (k : BitVec 4) : (s.setLatch g k).tab = s.tab := rfl
@[simp] theorem State.setLatch_flt (s : State) (g : Geometry) (k : BitVec 4) : (s.setLatch g k).flt = s.flt := rfl
@[simp] theorem State.setLatch_mem (s : State) (g : Geometry) (k : BitVec 4) : (s.setLatch g k).mem = s.mem := rfl
@[simp] theorem State.setLatch_plat (s : State) (g : Geometry) (k : BitVec 4) : (s.setLatch g k).plat = s.plat := rfl
@[simp] theorem State.setLatch_port (s : State) (g : Geometry) (k : BitVec 4) : (s.setLatch g k).port = s.port := rfl
@[simp] theorem State.setLatch_reply (s : State) (g : Geometry) (k : BitVec 4) : (s.setLatch g k).reply = s.reply := rfl
@[simp] theorem State.setLatch_ag_tx (s : State) (g : Geometry) (k : BitVec 4) :
    (s.setLatch g k).ag.tx = s.ag.tx := rfl
@[simp] theorem State.setLatch_ag_ty (s : State) (g : Geometry) (k : BitVec 4) :
    (s.setLatch g k).ag.ty = s.ag.ty := rfl
@[simp] theorem State.setLatch_ag_searchX (s : State) (g : Geometry) (k : BitVec 4) :
    (s.setLatch g k).ag.searchX = s.ag.searchX := rfl
@[simp] theorem State.setLatch_ag_searchY (s : State) (g : Geometry) (k : BitVec 4) :
    (s.setLatch g k).ag.searchY = s.ag.searchY := rfl
@[simp] theorem State.setLatch_ag_baseX (s : State) (g : Geometry) (k : BitVec 4) :
    (s.setLatch g k).ag.baseX = s.ag.baseX := rfl
@[simp] theorem State.setLatch_ag_baseY (s : State) (g : Geometry) (k : BitVec 4) :
    (s.setLatch g k).ag.baseY = s.ag.baseY := rfl
@[simp] theorem State.setLatch_ag_agg (s : State) (g : Geometry) (k : BitVec 4) :
    (s.setLatch g k).ag.agg = g := rfl
@[simp] theorem State.setLatch_ag_agk (s : State) (g : Geometry) (k : BitVec 4) :
    (s.setLatch g k).ag.agk = k := rfl
@[simp] theorem State.setLatch_ag_agdone (s : State) (g : Geometry) (k : BitVec 4) :
    (s.setLatch g k).ag.agdone = s.ag.agdone := rfl

/-! `setAgdone` -/

@[simp] theorem State.setAgdone_cfg (s : State) (v : Bool) : (s.setAgdone v).cfg = s.cfg := rfl
@[simp] theorem State.setAgdone_dp (s : State) (v : Bool) : (s.setAgdone v).dp = s.dp := rfl
@[simp] theorem State.setAgdone_tab (s : State) (v : Bool) : (s.setAgdone v).tab = s.tab := rfl
@[simp] theorem State.setAgdone_flt (s : State) (v : Bool) : (s.setAgdone v).flt = s.flt := rfl
@[simp] theorem State.setAgdone_mem (s : State) (v : Bool) : (s.setAgdone v).mem = s.mem := rfl
@[simp] theorem State.setAgdone_plat (s : State) (v : Bool) : (s.setAgdone v).plat = s.plat := rfl
@[simp] theorem State.setAgdone_port (s : State) (v : Bool) : (s.setAgdone v).port = s.port := rfl
@[simp] theorem State.setAgdone_reply (s : State) (v : Bool) : (s.setAgdone v).reply = s.reply := rfl
@[simp] theorem State.setAgdone_ag_tx (s : State) (v : Bool) :
    (s.setAgdone v).ag.tx = s.ag.tx := rfl
@[simp] theorem State.setAgdone_ag_ty (s : State) (v : Bool) :
    (s.setAgdone v).ag.ty = s.ag.ty := rfl
@[simp] theorem State.setAgdone_ag_searchX (s : State) (v : Bool) :
    (s.setAgdone v).ag.searchX = s.ag.searchX := rfl
@[simp] theorem State.setAgdone_ag_searchY (s : State) (v : Bool) :
    (s.setAgdone v).ag.searchY = s.ag.searchY := rfl
@[simp] theorem State.setAgdone_ag_baseX (s : State) (v : Bool) :
    (s.setAgdone v).ag.baseX = s.ag.baseX := rfl
@[simp] theorem State.setAgdone_ag_baseY (s : State) (v : Bool) :
    (s.setAgdone v).ag.baseY = s.ag.baseY := rfl
@[simp] theorem State.setAgdone_ag_agg (s : State) (v : Bool) :
    (s.setAgdone v).ag.agg = s.ag.agg := rfl
@[simp] theorem State.setAgdone_ag_agk (s : State) (v : Bool) :
    (s.setAgdone v).ag.agk = s.ag.agk := rfl
@[simp] theorem State.setAgdone_ag_agdone (s : State) (v : Bool) :
    (s.setAgdone v).ag.agdone = v := rfl

/-! `setTable` -/

@[simp] theorem State.setTable_cfg (s : State) (v : List Half) : (s.setTable v).cfg = s.cfg := rfl
@[simp] theorem State.setTable_ag (s : State) (v : List Half) : (s.setTable v).ag = s.ag := rfl
@[simp] theorem State.setTable_dp (s : State) (v : List Half) : (s.setTable v).dp = s.dp := rfl
@[simp] theorem State.setTable_tab (s : State) (v : List Half) : (s.setTable v).tab = { recip := v, rvalid := true } := rfl
@[simp] theorem State.setTable_flt (s : State) (v : List Half) : (s.setTable v).flt = s.flt := rfl
@[simp] theorem State.setTable_mem (s : State) (v : List Half) : (s.setTable v).mem = s.mem := rfl
@[simp] theorem State.setTable_plat (s : State) (v : List Half) : (s.setTable v).plat = s.plat := rfl
@[simp] theorem State.setTable_port (s : State) (v : List Half) : (s.setTable v).port = s.port := rfl
@[simp] theorem State.setTable_reply (s : State) (v : List Half) : (s.setTable v).reply = s.reply := rfl

/-! `setCfg` -/

@[simp] theorem State.setCfg_cfg (s : State) (c : CfgRegs) : (s.setCfg c).cfg = c := rfl
@[simp] theorem State.setCfg_ag (s : State) (c : CfgRegs) : (s.setCfg c).ag = s.ag := rfl
@[simp] theorem State.setCfg_dp (s : State) (c : CfgRegs) : (s.setCfg c).dp = s.dp := rfl
@[simp] theorem State.setCfg_tab (s : State) (c : CfgRegs) : (s.setCfg c).tab = s.tab := rfl
@[simp] theorem State.setCfg_flt (s : State) (c : CfgRegs) : (s.setCfg c).flt = s.flt := rfl
@[simp] theorem State.setCfg_mem (s : State) (c : CfgRegs) : (s.setCfg c).mem = s.mem := rfl
@[simp] theorem State.setCfg_plat (s : State) (c : CfgRegs) : (s.setCfg c).plat = s.plat := rfl
@[simp] theorem State.setCfg_port (s : State) (c : CfgRegs) : (s.setCfg c).port = s.port := rfl
@[simp] theorem State.setCfg_reply (s : State) (c : CfgRegs) : (s.setCfg c).reply = s.reply := rfl

/-! `setMem` -/

@[simp] theorem State.setMem_cfg (s : State) (m : Memory) : (s.setMem m).cfg = s.cfg := rfl
@[simp] theorem State.setMem_ag (s : State) (m : Memory) : (s.setMem m).ag = s.ag := rfl
@[simp] theorem State.setMem_dp (s : State) (m : Memory) : (s.setMem m).dp = s.dp := rfl
@[simp] theorem State.setMem_tab (s : State) (m : Memory) : (s.setMem m).tab = s.tab := rfl
@[simp] theorem State.setMem_flt (s : State) (m : Memory) : (s.setMem m).flt = s.flt := rfl
@[simp] theorem State.setMem_mem (s : State) (m : Memory) : (s.setMem m).mem = m := rfl
@[simp] theorem State.setMem_plat (s : State) (m : Memory) : (s.setMem m).plat = s.plat := rfl
@[simp] theorem State.setMem_port (s : State) (m : Memory) : (s.setMem m).port = s.port := rfl
@[simp] theorem State.setMem_reply (s : State) (m : Memory) : (s.setMem m).reply = s.reply := rfl

/-! `setFlt` -/

@[simp] theorem State.setFlt_cfg (s : State) (f : FaultRegs) : (s.setFlt f).cfg = s.cfg := rfl
@[simp] theorem State.setFlt_ag (s : State) (f : FaultRegs) : (s.setFlt f).ag = s.ag := rfl
@[simp] theorem State.setFlt_dp (s : State) (f : FaultRegs) : (s.setFlt f).dp = s.dp := rfl
@[simp] theorem State.setFlt_tab (s : State) (f : FaultRegs) : (s.setFlt f).tab = s.tab := rfl
@[simp] theorem State.setFlt_flt (s : State) (f : FaultRegs) : (s.setFlt f).flt = f := rfl
@[simp] theorem State.setFlt_mem (s : State) (f : FaultRegs) : (s.setFlt f).mem = s.mem := rfl
@[simp] theorem State.setFlt_plat (s : State) (f : FaultRegs) : (s.setFlt f).plat = s.plat := rfl
@[simp] theorem State.setFlt_port (s : State) (f : FaultRegs) : (s.setFlt f).port = s.port := rfl
@[simp] theorem State.setFlt_reply (s : State) (f : FaultRegs) : (s.setFlt f).reply = s.reply := rfl

/-! `setReply` -/

@[simp] theorem State.setReply_cfg (s : State) (v : Option Word) : (s.setReply v).cfg = s.cfg := rfl
@[simp] theorem State.setReply_ag (s : State) (v : Option Word) : (s.setReply v).ag = s.ag := rfl
@[simp] theorem State.setReply_dp (s : State) (v : Option Word) : (s.setReply v).dp = s.dp := rfl
@[simp] theorem State.setReply_tab (s : State) (v : Option Word) : (s.setReply v).tab = s.tab := rfl
@[simp] theorem State.setReply_flt (s : State) (v : Option Word) : (s.setReply v).flt = s.flt := rfl
@[simp] theorem State.setReply_mem (s : State) (v : Option Word) : (s.setReply v).mem = s.mem := rfl
@[simp] theorem State.setReply_plat (s : State) (v : Option Word) : (s.setReply v).plat = s.plat := rfl
@[simp] theorem State.setReply_port (s : State) (v : Option Word) : (s.setReply v).port = s.port := rfl
@[simp] theorem State.setReply_reply (s : State) (v : Option Word) : (s.setReply v).reply = v := rfl

/-! `takeAction` -/

@[simp] theorem takeAction_cfg (s : State) (rest : List HostAction) :
    (takeAction s rest).cfg = s.cfg := rfl
@[simp] theorem takeAction_ag (s : State) (rest : List HostAction) :
    (takeAction s rest).ag = s.ag := rfl
@[simp] theorem takeAction_dp (s : State) (rest : List HostAction) :
    (takeAction s rest).dp = s.dp := rfl
@[simp] theorem takeAction_tab (s : State) (rest : List HostAction) :
    (takeAction s rest).tab = s.tab := rfl
@[simp] theorem takeAction_flt (s : State) (rest : List HostAction) :
    (takeAction s rest).flt = s.flt := rfl
@[simp] theorem takeAction_mem (s : State) (rest : List HostAction) :
    (takeAction s rest).mem = s.mem := rfl
@[simp] theorem takeAction_plat (s : State) (rest : List HostAction) :
    (takeAction s rest).plat = s.plat := rfl
@[simp] theorem takeAction_port (s : State) (rest : List HostAction) :
    (takeAction s rest).port = rest := rfl
@[simp] theorem takeAction_reply (s : State) (rest : List HostAction) :
    (takeAction s rest).reply = none := rfl

/-! `resetUnit` -/

@[simp] theorem resetUnit_cfg (s : State) : (resetUnit s).cfg = CfgRegs.reset := rfl
@[simp] theorem resetUnit_ag (s : State) : (resetUnit s).ag = AgRegs.reset := rfl
@[simp] theorem resetUnit_dp (s : State) : (resetUnit s).dp = DataRegs.reset := rfl
@[simp] theorem resetUnit_tab (s : State) : (resetUnit s).tab = TableRegs.reset := rfl
@[simp] theorem resetUnit_flt (s : State) : (resetUnit s).flt = FaultRegs.reset := rfl
@[simp] theorem resetUnit_mem (s : State) : (resetUnit s).mem = s.mem := rfl
@[simp] theorem resetUnit_plat (s : State) : (resetUnit s).plat = s.plat := rfl
@[simp] theorem resetUnit_port (s : State) : (resetUnit s).port = s.port := rfl
@[simp] theorem resetUnit_reply (s : State) : (resetUnit s).reply = s.reply := rfl

end Sys2Proof.Machine
end

