-- ==== Sys2Proof/Laws/Memory.lean ====
section
/-! SUPPORT. The laws of memory: read after write, and the canonical form is kept. -/

namespace Sys2Proof.Machine

-- One thread for all these proofs: one for each of them would need too much memory.
set_option Elab.async false

theorem memFind_memPut_same (m : Memory) (a : Nat) (v : Byte) : memFind (memPut m a v) a = some v := by
  induction m with
  | nil => simp [memPut, memFind]
  | cons c rest ih =>
    obtain ⟨k, u⟩ := c
    simp only [memPut]
    split
    · simp [memFind]
    · split
      · simp [memFind]
      · rename_i h; simp [memFind, Ne.symm h, ih]

theorem memFind_memPut_other (m : Memory) (a b : Nat) (v : Byte) (h : b ≠ a) :
    memFind (memPut m a v) b = memFind m b := by
  induction m with
  | nil => simp [memPut, memFind, h.symm]
  | cons c rest ih =>
    obtain ⟨k, u⟩ := c
    simp only [memPut]
    split
    · simp [memFind, h.symm]
    · split
      · rename_i h2; subst h2; simp [memFind, h.symm]
      · simp only [memFind, ih]

theorem memWfFrom_memPut (m : Memory) (lo a : Nat) (v : Byte) (hm : memWfFrom lo m = true)
    (hlo : lo ≤ a) (ha : a ≤ addrMax) : memWfFrom lo (memPut m a v) = true := by
  induction m generalizing lo with
  | nil => simp [memPut, memWfFrom, hlo, ha]
  | cons c rest ih =>
    obtain ⟨k, u⟩ := c
    simp only [memWfFrom, Bool.and_eq_true, decide_eq_true_eq] at hm
    obtain ⟨⟨h1, h2⟩, h3⟩ := hm
    simp only [memPut]
    split
    · rename_i hak
      simp [memWfFrom, hlo, ha, h2, h3]; omega
    · split
      · rename_i hak; subst hak; simp [memWfFrom, h1, h2, h3]
      · simp only [memWfFrom, Bool.and_eq_true, decide_eq_true_eq]
        exact ⟨⟨h1, h2⟩, ih _ h3 (by omega)⟩

/-- A write keeps the canonical form. -/
theorem memPut_wf (m : Memory) (a : Nat) (v : Byte) (hm : Memory.wf m = true) (ha : a ≤ addrMax) :
    Memory.wf (memPut m a v) = true :=
  memWfFrom_memPut m 0 a v hm (Nat.zero_le a) ha

/-- The memory after reset, with nothing listed, is canonical. -/
theorem reset_memory_wf : Memory.wf State.reset.mem = true := rfl

/-- Reading an address just written gives the value written. -/
theorem byteAt_memPut_same (s : State) (a : Nat) (v : Byte) :
    (s.setMem (memPut s.mem a v)).byteAt a = v := by
  simp [State.byteAt, memFind_memPut_same]

/-- A write leaves every other address alone. -/
theorem byteAt_memPut_other (s : State) (a b : Nat) (v : Byte) (h : b ≠ a) :
    (s.setMem (memPut s.mem a v)).byteAt b = s.byteAt b := by
  simp [State.byteAt, memFind_memPut_other _ _ _ _ h]

/-- Which addresses are mapped depends on the platform only. -/
theorem inMemDom_of_plat {s t : State} (h : t.plat = s.plat) (a : Nat) :
    t.inMemDom a = s.inMemDom a := by
  simp [State.inMemDom, h]

/-- The byte at an address depends on the memory only. -/
theorem byteAt_of_mem {s t : State} (h : t.mem = s.mem) (a : Nat) : t.byteAt a = s.byteAt a := by
  simp [State.byteAt, h]

end Sys2Proof.Machine
end

