-- ==== Sys2Proof/Laws/Run.lean ====
section
/-! SUPPORT. How pseudocode runs: one equation for each way of composing it, and frames, "whatever the
outcome, the state reached is related to the state before". -/

namespace Sys2Proof.Machine

section
variable {α β : Type}

/-! ## Equations -/

@[simp] theorem op_pure (a : α) (s : State) : (pure a : Op α) s = .ok a s := rfl

theorem op_bind (x : Op α) (f : α → Op β) (s : State) :
    (x >>= f) s = match x s with | .ok a t => f a t | .error c t => .error c t := by
  simp only [bind, EStateM.bind]
  cases x s <;> rfl

theorem op_bind_ok {x : Op α} {f : α → Op β} {s t : State} {a : α} (h : x s = .ok a t) :
    (x >>= f) s = f a t := by rw [op_bind, h]

theorem op_bind_error {x : Op α} {f : α → Op β} {s t : State} {c : Cause} (h : x s = .error c t) :
    (x >>= f) s = .error c t := by rw [op_bind, h]

@[simp] theorem op_get (s : State) : (get : Op State) s = .ok s s := rfl
@[simp] theorem op_set (s t : State) : (set t : Op PUnit) s = .ok () t := rfl
@[simp] theorem op_modify (f : State → State) (s : State) : (modify f : Op PUnit) s = .ok () (f s) := rfl
@[simp] theorem op_raise (c : Cause) (s : State) : (raise c : Op α) s = .error c s := rfl

theorem op_look (f : State → Except Cause α) (s : State) :
    look f s = match f s with | .ok a => .ok a s | .error c => .error c s := rfl

theorem look_ok {f : State → Except Cause α} {s : State} {a : α} (h : f s = .ok a) :
    look f s = .ok a s := by simp [op_look, h]

theorem look_error {f : State → Except Cause α} {s : State} {c : Cause} (h : f s = .error c) :
    look f s = .error c s := by simp [op_look, h]

/-- A reading step that answers changes nothing. -/
theorem look_inv {f : State → Except Cause α} {s t : State} {a : α} (h : look f s = .ok a t) :
    f s = .ok a ∧ t = s := by
  rw [op_look] at h
  split at h
  · rename_i b hb
    cases h
    exact ⟨hb, rfl⟩
  · cases h

/-! ## Commands -/

theorem command_ok {i : Instr} {op : Op Unit} {s t : State} (h : op s = .ok () t) :
    command i op s = .next t := by simp [command, h]

theorem command_error {i : Instr} {op : Op Unit} {s t : State} {c : Cause} (h : op s = .error c t) :
    command i op s = .next (takeFault t c (encode i)) := by simp [command, h]

/-- A command always reaches a next state: the one its pseudocode ends in, or that state with the fault
recorded. -/
theorem command_next {i : Instr} {op : Op Unit} {s t : State} (h : command i op s = .next t) :
    op s = .ok () t ∨ ∃ c u, op s = .error c u ∧ t = takeFault u c (encode i) := by
  simp only [command] at h
  split at h
  · rename_i t' hop; cases h; exact .inl hop
  · rename_i c u hop; cases h; exact .inr ⟨c, u, hop, rfl⟩

/-- Every command answers a next state. -/
theorem command_total (i : Instr) (op : Op Unit) (s : State) : ∃ t, command i op s = .next t := by
  simp only [command]
  split <;> exact ⟨_, rfl⟩

/-- The pseudocode of each instruction. -/
def opOf : Instr → Op Unit
  | .nop => nopOp
  | .rbuild => rbuildOp
  | .sad rp ra cp ca dx dy => sadOp rp ra cp ca dx dy
  | .cmp => cmpOp
  | .ssadd => ssaddOp
  | .bsad cp => bsadOp cp
  | .devl => devlOp
  | .dmin => dminOp
  | .thresh => threshOp
  | .clra => clraOp
  | .accrow cp ca dx dy row => accrowOp cp ca dx dy row
  | .accblk cp ca dx dy => accblkOp cp ca dx dy
  | .store => storeOp
  | .blend => blendOp
  | .diff => diffOp
  | .pack alpha => packOp alpha
  | .filt r => filtOp r
  | .afilt r => afiltOp r
  | .ofilt r cp => ofiltOp r cp
  | .dfilt => dfiltOp
  | .agstart g k => agstartOp g k
  | .agnext => agnextOp
  | .agclamp g k => agclampOp g k
  | .tile1 => tile1Op
  | .tile2a => tile2aOp
  | .tile2b => tile2bOp
  | .pass1 => pass1Op
  | .pass2a => pass2aOp
  | .pass2b => pass2bOp
  | .runplane => runplaneOp

/-- Every instruction is its pseudocode, run as one command. -/
theorem exec_eq (i : Instr) (s : State) : exec i s = command i (opOf i) s := by
  cases i <;> rfl

/-- Every instruction answers a next state: a fault is recorded in the state it answers. -/
theorem exec_total (i : Instr) (s : State) : ∃ t, exec i s = .next t := by
  rw [exec_eq]
  exact command_total _ _ _

/-- Every step answers a next state. -/
theorem step_total (s : State) : ∃ t, step s = .next t := by
  simp only [step]
  split
  · exact ⟨_, rfl⟩
  · rename_i a rest h
    cases a with
    | read off => exact ⟨_, rfl⟩
    | poke x v => exact ⟨_, rfl⟩
    | powerOn => exact ⟨_, rfl⟩
    | write off v =>
      simp only [serve, hostWrite]
      split
      · exact ⟨_, rfl⟩
      · split
        · exact ⟨_, rfl⟩
        · split
          · exact ⟨_, rfl⟩
          · split
            · exact ⟨_, rfl⟩
            · split
              · simp only [runWord]
                split
                · exact exec_total _ _
                · exact ⟨_, rfl⟩
              · exact ⟨_, rfl⟩

/-! ## Taking a fault -/

@[simp] theorem takeFault_cfg (s : State) (c : Cause) (w : Word) : (takeFault s c w).cfg = s.cfg := by
  unfold takeFault; split <;> rfl
@[simp] theorem takeFault_ag (s : State) (c : Cause) (w : Word) : (takeFault s c w).ag = s.ag := by
  unfold takeFault; split <;> rfl
@[simp] theorem takeFault_dp (s : State) (c : Cause) (w : Word) : (takeFault s c w).dp = s.dp := by
  unfold takeFault; split <;> rfl
@[simp] theorem takeFault_tab (s : State) (c : Cause) (w : Word) : (takeFault s c w).tab = s.tab := by
  unfold takeFault; split <;> rfl
@[simp] theorem takeFault_mem (s : State) (c : Cause) (w : Word) : (takeFault s c w).mem = s.mem := by
  unfold takeFault; split <;> rfl
@[simp] theorem takeFault_plat (s : State) (c : Cause) (w : Word) : (takeFault s c w).plat = s.plat := by
  unfold takeFault; split <;> rfl
@[simp] theorem takeFault_port (s : State) (c : Cause) (w : Word) : (takeFault s c w).port = s.port := by
  unfold takeFault; split <;> rfl
@[simp] theorem takeFault_reply (s : State) (c : Cause) (w : Word) : (takeFault s c w).reply = s.reply := by
  unfold takeFault; split <;> rfl

/-- A fault of a unit that is not faulted is recorded. -/
theorem takeFault_flt {s : State} (h : s.flt.fault = false) (c : Cause) (w : Word) :
    (takeFault s c w).flt = { fault := true, cause := causeCode c, finfo := w } := by
  simp [takeFault, h]

/-- A faulted unit records nothing more. -/
theorem takeFault_faulted {s : State} (h : s.flt.fault = true) (c : Cause) (w : Word) :
    takeFault s c w = s := by
  simp [takeFault, h]

/-! ## Frames -/

/-- The state that pseudocode ends in, completed or not. -/
def endState {γ : Type} : EStateM.Result Cause State γ → State
  | .ok _ t => t
  | .error _ t => t

/-- Whatever its outcome, `op` reaches a state related to the one it started in. -/
def Keeps (R : State → State → Prop) (op : Op α) : Prop := ∀ s, R s (endState (op s))

/-- What a relation must satisfy for frames to compose. -/
structure Frame (R : State → State → Prop) : Prop where
  refl : ∀ s, R s s
  trans : ∀ s t u, R s t → R t u → R s u

variable {R : State → State → Prop}

theorem keeps_pure (hR : Frame R) (a : α) : Keeps R (pure a : Op α) := fun s => hR.refl s

theorem keeps_raise (hR : Frame R) (c : Cause) : Keeps R (raise c : Op α) := fun s => hR.refl s

theorem keeps_get (hR : Frame R) : Keeps R (get : Op State) := fun s => hR.refl s

theorem keeps_look (hR : Frame R) (f : State → Except Cause α) : Keeps R (look f) := by
  intro s
  rw [op_look]
  split <;> exact hR.refl s

theorem keeps_modify {f : State → State} (h : ∀ s, R s (f s)) : Keeps R (modify f : Op PUnit) :=
  fun s => h s

theorem keeps_bind (hR : Frame R) {x : Op α} {f : α → Op β} (hx : Keeps R x)
    (hf : ∀ a, Keeps R (f a)) : Keeps R (x >>= f) := by
  intro s
  have h := hx s
  rw [op_bind]
  split
  · rename_i a t ht
    rw [ht] at h
    exact hR.trans _ _ _ h (hf a t)
  · rename_i c t ht
    rw [ht] at h
    exact h

/-- A step that reads the state and then runs pseudocode chosen by it. -/
theorem keeps_get_bind {f : State → Op β} (hf : ∀ s, R s (endState (f s s))) :
    Keeps R ((get : Op State) >>= f) := fun s => hf s

theorem keeps_ite {p : Prop} [Decidable p] {x y : Op α} (hx : Keeps R x) (hy : Keeps R y) :
    Keeps R (if p then x else y) := by
  split <;> assumption

/-- What a command leaves related, its pseudocode and the recording of a fault leave related. -/
theorem keeps_command {op : Op Unit} (h : Keeps R op) (hF : ∀ s t c w, R s t → R s (takeFault t c w))
    {i : Instr} {s t : State} (ht : command i op s = .next t) : R s t := by
  have hs := h s
  rcases command_next ht with hop | ⟨c, u, hop, rfl⟩
  · rw [hop] at hs; exact hs
  · rw [hop] at hs; exact hF _ _ _ _ hs

end

end Sys2Proof.Machine
end

