-- ==== Sys2Proof/Laws/Operands.lean ====
section
/-! SUPPORT. What the operand forms do: sample reads, block reads and destination writes. -/

namespace Sys2Proof.Machine

/-! ## Samples -/

/-- A sample address exists exactly inside the plane and below the end of the address space. -/
theorem sampleAddr_ok_iff (c : CfgRegs) (p : Plane) (x y : Int) (a : Nat) :
    sampleAddr c p x y = .ok a ↔
      inPlane c x y = true ∧ linearAddr c p x y ≤ addrMax ∧ a = linearAddr c p x y := by
  unfold sampleAddr
  split
  · split
    · rename_i h1 h2
      constructor
      · intro h; cases h
      · rintro ⟨-, h, -⟩; omega
    · rename_i h1 h2
      constructor
      · intro h; cases h; exact ⟨h1, by omega, rfl⟩
      · rintro ⟨-, -, rfl⟩; rfl
  · rename_i h1
    constructor
    · intro h; cases h
    · rintro ⟨h, -, -⟩; exact absurd h h1

/-- A sample read answers the byte at the sample's address, exactly where the sample can be accessed. -/
theorem px_ok_iff (s : State) (p : Plane) (x y : Int) (v : Byte) :
    px s p x y = .ok v ↔
      sampleOk s p x y = true ∧ v = s.byteAt (linearAddr s.cfg p x y) := by
  unfold px
  cases h : sampleAddr s.cfg p x y with
  | error c =>
    constructor
    · intro h'; cases h'
    · rintro ⟨h', -⟩
      simp only [sampleOk, Bool.and_eq_true, decide_eq_true_eq] at h'
      have := (sampleAddr_ok_iff s.cfg p x y _).2 ⟨h'.1.1, h'.1.2, rfl⟩
      rw [h] at this; cases this
  | ok a =>
    obtain ⟨h1, h2, rfl⟩ := (sampleAddr_ok_iff _ _ _ _ _).1 h
    simp only [memRead, sampleOk, h1, h2, decide_true, Bool.true_and]
    split
    · rename_i h3
      constructor
      · intro h'; cases h'; exact ⟨h3, rfl⟩
      · rintro ⟨-, rfl⟩; rfl
    · rename_i h3
      constructor
      · intro h'; cases h'
      · rintro ⟨h', -⟩; exact absurd h' h3

/-- What a read depends on: the configuration, the platform and the bytes of memory. -/
theorem px_congr {s t : State} (hc : t.cfg = s.cfg) (hp : t.plat = s.plat) (hm : t.mem = s.mem)
    (p : Plane) (x y : Int) : px t p x y = px s p x y := by
  simp only [px, memRead, hc, inMemDom_of_plat hp, byteAt_of_mem hm]

/-- Four samples of a row are read exactly where all four can be accessed. -/
theorem pxRow_ok_iff (s : State) (p : Plane) (x y : Int) (q : Quad Byte) :
    pxRow s p x y = .ok q ↔
      px s p x y = .ok q.q0 ∧ px s p (x + 1) y = .ok q.q1 ∧ px s p (x + 2) y = .ok q.q2
        ∧ px s p (x + 3) y = .ok q.q3 := by
  unfold pxRow
  cases h0 : px s p x y <;> cases h1 : px s p (x + 1) y <;> cases h2 : px s p (x + 2) y <;>
    cases h3 : px s p (x + 3) y <;>
    simp [bind, Except.bind, pure, Except.pure]
  cases q
  simp

/-- A block is read exactly where its four rows are. -/
theorem blk_ok_iff (s : State) (p : Plane) (x y : Int) (b : Block Byte) :
    blk s p x y = .ok b ↔
      pxRow s p x y = .ok b.q0 ∧ pxRow s p x (y + 1) = .ok b.q1 ∧ pxRow s p x (y + 2) = .ok b.q2
        ∧ pxRow s p x (y + 3) = .ok b.q3 := by
  unfold blk
  cases h0 : pxRow s p x y <;> cases h1 : pxRow s p x (y + 1) <;> cases h2 : pxRow s p x (y + 2) <;>
    cases h3 : pxRow s p x (y + 3) <;>
    simp [bind, Except.bind, pure, Except.pure]
  cases b
  simp

/-- A block read depends on the configuration, the platform and the bytes of memory. -/
theorem blk_congr {s t : State} (hc : t.cfg = s.cfg) (hp : t.plat = s.plat) (hm : t.mem = s.mem)
    (p : Plane) (x y : Int) : blk t p x y = blk s p x y := by
  have h : px t = px s := by funext p x y; exact px_congr hc hp hm p x y
  simp only [blk, pxRow, h]

/-- A candidate block depends on the anchors too. -/
theorem candBlk_congr {s t : State} (hc : t.cfg = s.cfg) (hp : t.plat = s.plat) (hm : t.mem = s.mem)
    (ha : t.ag = s.ag) (p : Plane) (a : Anchor) (dx dy : Int) :
    candBlk t p a dx dy = candBlk s p a dx dy := by
  simp only [candBlk, blk_congr hc hp hm]
  cases a <;> simp [anchorPos, ha]

/-- A block whose samples are all inside a mapped plane can be read. -/
theorem blk_readable {s : State} {p : Plane} (hm : PlaneMapped s p) (x y : Nat)
    (hx : x + 4 ≤ s.cfg.width.toNat) (hy : y + 4 ≤ s.cfg.height.toNat) :
    ∃ b, blk s p x y = .ok b := by
  have key : ∀ i j : Nat, i < 4 → j < 4 → ∃ v, px s p ((x + i : Nat) : Int) ((y + j : Nat) : Int) = .ok v := by
    intro i j hi hj
    exact ⟨_, (px_ok_iff s p _ _ _).2 ⟨hm _ (by omega) _ (by omega), rfl⟩⟩
  have row : ∀ j : Nat, j < 4 → ∃ q, pxRow s p (x : Int) ((y + j : Nat) : Int) = .ok q := by
    intro j hj
    obtain ⟨v0, h0⟩ := key 0 j (by omega) hj
    obtain ⟨v1, h1⟩ := key 1 j (by omega) hj
    obtain ⟨v2, h2⟩ := key 2 j (by omega) hj
    obtain ⟨v3, h3⟩ := key 3 j (by omega) hj
    refine ⟨⟨v0, v1, v2, v3⟩, (pxRow_ok_iff _ _ _ _ _).2 ⟨?_, ?_, ?_, ?_⟩⟩
    · simpa using h0
    · simpa using h1
    · simpa using h2
    · simpa using h3
  obtain ⟨q0, h0⟩ := row 0 (by omega)
  obtain ⟨q1, h1⟩ := row 1 (by omega)
  obtain ⟨q2, h2⟩ := row 2 (by omega)
  obtain ⟨q3, h3⟩ := row 3 (by omega)
  refine ⟨⟨q0, q1, q2, q3⟩, (blk_ok_iff _ _ _ _ _).2 ⟨?_, ?_, ?_, ?_⟩⟩
  · simpa using h0
  · simpa using h1
  · simpa using h2
  · simpa using h3

/-! ## Destination writes -/

/-- A destination write that answers writes the one byte at the sample's address. -/
theorem wrpx_ok_iff (x y : Int) (v : Byte) (s t : State) :
    wrpx x y v s = .ok () t ↔
      sampleOk s .dst x y = true
        ∧ t = s.setMem (memPut s.mem (linearAddr s.cfg .dst x y) v) := by
  unfold wrpx
  rw [op_bind, op_look]
  cases h : sampleAddr s.cfg .dst x y with
  | error c =>
    constructor
    · intro h'; cases h'
    · rintro ⟨h', -⟩
      simp only [sampleOk, Bool.and_eq_true, decide_eq_true_eq] at h'
      have := (sampleAddr_ok_iff s.cfg .dst x y _).2 ⟨h'.1.1, h'.1.2, rfl⟩
      rw [h] at this; cases this
  | ok a =>
    obtain ⟨h1, h2, rfl⟩ := (sampleAddr_ok_iff _ _ _ _ _).1 h
    simp only [memWrite, sampleOk, h1, h2, decide_true, Bool.true_and]
    split
    · rename_i h3
      constructor
      · intro h'; cases h'; exact ⟨h3, rfl⟩
      · rintro ⟨-, rfl⟩; rfl
    · rename_i h3
      constructor
      · intro h'; cases h'
      · rintro ⟨h', -⟩; exact absurd h' h3

/-- A destination write that fails changes nothing. -/
theorem wrpx_error {x y : Int} {v : Byte} {s t : State} {c : Cause} (h : wrpx x y v s = .error c t) :
    t = s := by
  unfold wrpx at h
  rw [op_bind, op_look] at h
  split at h
  · rename_i a u ha
    split at ha
    · cases ha
      simp only [memWrite] at h
      split at h
      · cases h
      · cases h; rfl
    · cases ha
  · rename_i e u ha
    split at ha
    · cases ha
    · cases ha; cases h; rfl

/-- A destination write changes memory only, and there only one sample of the destination plane. -/
theorem wrpx_frame (x y : Int) (v : Byte) (s : State) :
    endState (wrpx x y v s) = s ∨
      (inPlane s.cfg x y = true ∧ linearAddr s.cfg .dst x y ≤ addrMax ∧
        endState (wrpx x y v s) = s.setMem (memPut s.mem (linearAddr s.cfg .dst x y) v)) := by
  cases h : wrpx x y v s with
  | error c t => exact .inl (by simpa [endState] using wrpx_error h)
  | ok u t =>
    obtain ⟨h1, h2⟩ := (wrpx_ok_iff _ _ _ _ _).1 h
    simp only [sampleOk, Bool.and_eq_true, decide_eq_true_eq] at h1
    exact .inr ⟨h1.1.1, h1.1.2, by simpa [endState] using h2⟩

end Sys2Proof.Machine
end

