-- ==== Sys2Proof/Laws/Blend.lean ====
section
/-! SUPPORT. What the write-back operations do: the reciprocal lookup, one lane of a store or a blend, and a
run over lanes (spec/43_recip_blend.md R160 to R167). -/

namespace Sys2Proof.Machine

-- One thread for all these proofs: one for each of them would need too much memory.
set_option Elab.async false

/-! ## The reciprocal lookup -/

/-- The lookup answers exactly with a built table and a count that is not 0. -/
theorem rcp_ok_iff (s : State) (q : Nat) :
    rcp s = .ok q ↔
      s.tab.rvalid = true ∧ s.dp.wacc ≠ 0 ∧ q = (recipAt s.tab s.dp.wacc.toNat).toNat := by
  unfold rcp
  split
  · rename_i h
    split
    · rename_i hw
      constructor
      · intro h'; cases h'
      · rintro ⟨-, h', -⟩; exact absurd hw h'
    · rename_i hw
      constructor
      · intro h'; cases h'; exact ⟨h, hw, rfl⟩
      · rintro ⟨-, -, rfl⟩; rfl
  · rename_i h
    constructor
    · intro h'; cases h'
    · rintro ⟨h', -, -⟩; exact absurd h' h

theorem rcp_error_invalid {s : State} (h : s.tab.rvalid = false) : rcp s = .error .rinvalid := by
  simp [rcp, h]

theorem rcp_error_zero {s : State} (h : s.tab.rvalid = true) (hw : s.dp.wacc = 0) :
    rcp s = .error .wzero := by
  simp [rcp, h, hw]

/-! ## One lane -/

/-- The destination address of a lane, as a number. -/
def laneIndex (s : State) (r c : Fin 4) : Nat :=
  linearAddr s.cfg .dst (baseLane s r c).1 (baseLane s r c).2

/-- A lane of a store writes one byte, where the destination sample can be accessed. -/
theorem storeLane_ok {s : State} {q : Nat} {r c : Fin 4}
    (h : sampleOk s .dst (baseLane s r c).1 (baseLane s r c).2 = true) :
    storeLane q r c s = .ok 0 (s.setMem (memPut s.mem (laneIndex s r c)
      (storeval ((s.dp.acc.get r).get c).toNat q))) := by
  unfold storeLane
  rw [op_bind_ok (op_get s), op_bind_ok ((wrpx_ok_iff _ _ _ _ _).2 ⟨h, rfl⟩)]
  rfl

/-- A lane of a blend reads the existing byte, writes the blended one and answers its residual term, where
the destination sample can be accessed. -/
theorem blendLane_ok {s : State} {q : Nat} {r c : Fin 4}
    (h : sampleOk s .dst (baseLane s r c).1 (baseLane s r c).2 = true) :
    let e := s.byteAt (laneIndex s r c)
    let out := blendval e ((s.dp.acc.get r).get c).toNat q (wwHi s.dp.ww) (wwLo s.dp.ww)
    blendLane q r c s = .ok (residTerm s.plat.diffPack out e (wwHi s.dp.ww))
      (s.setMem (memPut s.mem (laneIndex s r c) out)) := by
  intro e out
  have hread : px s .dst (baseLane s r c).1 (baseLane s r c).2 = .ok e :=
    (px_ok_iff _ _ _ _ _).2 ⟨h, rfl⟩
  unfold blendLane
  rw [op_bind_ok (op_get s), op_bind_ok (look_ok hread), op_bind_ok ((wrpx_ok_iff _ _ _ _ _).2 ⟨h, rfl⟩)]
  rfl

/-! ## Runs over lanes -/

@[simp] theorem eachLane_nil (f : Fin 4 → Fin 4 → Op Nat) (s : State) : eachLane f [] s = .ok 0 s := rfl

/-- A lane that answers is followed by the rest. -/
theorem eachLane_cons_ok {f : Fin 4 → Fin 4 → Op Nat} {l : Fin 4 × Fin 4} {ls : List (Fin 4 × Fin 4)}
    {s t : State} {n : Nat} (h : f l.1 l.2 s = .ok n t) :
    eachLane f (l :: ls) s = match eachLane f ls t with
      | .ok m u => .ok (n + m) u
      | .error c u => .error c u := by
  obtain ⟨r, c⟩ := l
  simp only [eachLane]
  rw [op_bind_ok h, op_bind]
  cases eachLane f ls t <;> rfl

/-- A lane that fails ends the run. -/
theorem eachLane_cons_error {f : Fin 4 → Fin 4 → Op Nat} {l : Fin 4 × Fin 4} {ls : List (Fin 4 × Fin 4)}
    {s t : State} {c : Cause} (h : f l.1 l.2 s = .error c t) :
    eachLane f (l :: ls) s = .error c t := by
  obtain ⟨r, k⟩ := l
  simp only [eachLane]
  rw [op_bind_error h]

/-- A relation that every lane keeps, a run over lanes keeps. -/
theorem keeps_eachLane {R : State → State → Prop} (hR : Frame R) {f : Fin 4 → Fin 4 → Op Nat}
    (hf : ∀ r c, Keeps R (f r c)) (ls : List (Fin 4 × Fin 4)) : Keeps R (eachLane f ls) := by
  induction ls with
  | nil => exact keeps_pure hR 0
  | cons l ls ih =>
    obtain ⟨r, c⟩ := l
    exact keeps_bind hR (hf r c) fun _ => keeps_bind hR ih fun _ => keeps_pure hR _

end Sys2Proof.Machine
end

