-- ==== Sys2Proof/Laws/Datapath.lean ====
section
/-! SUPPORT. What the datapath operations do: blocks of four by four, the SAD, the compare, the masked
accumulation, and a whole candidate scan. -/

namespace Sys2Proof

/-! ## Quads -/

section
variable {α β γ : Type}

@[simp] theorem Quad.get_zip (f : α → β → γ) (a : Quad α) (b : Quad β) (i : Fin 4) :
    (Quad.zip f a b).get i = f (a.get i) (b.get i) := by
  match i with
  | 0 => rfl
  | 1 => rfl
  | 2 => rfl
  | 3 => rfl

@[simp] theorem Quad.get_fill (v : α) (i : Fin 4) : (Quad.fill v).get i = v := by
  match i with
  | 0 => rfl
  | 1 => rfl
  | 2 => rfl
  | 3 => rfl

theorem Quad.get_set (q : Quad α) (i j : Fin 4) (v : α) :
    (q.set i v).get j = if j = i then v else q.get j := by
  match i, j with
  | 0, 0 => rfl
  | 0, 1 => rfl
  | 0, 2 => rfl
  | 0, 3 => rfl
  | 1, 0 => rfl
  | 1, 1 => rfl
  | 1, 2 => rfl
  | 1, 3 => rfl
  | 2, 0 => rfl
  | 2, 1 => rfl
  | 2, 2 => rfl
  | 2, 3 => rfl
  | 3, 0 => rfl
  | 3, 1 => rfl
  | 3, 2 => rfl
  | 3, 3 => rfl

theorem Quad.all_iff (p : α → Bool) (q : Quad α) : q.all p = true ↔ ∀ i, p (q.get i) = true := by
  constructor
  · intro h i
    simp only [Quad.all, Bool.and_eq_true] at h
    match i with
    | 0 => exact h.1.1.1
    | 1 => exact h.1.1.2
    | 2 => exact h.1.2
    | 3 => exact h.2
  · intro h
    simp only [Quad.all, Bool.and_eq_true]
    exact ⟨⟨⟨h 0, h 1⟩, h 2⟩, h 3⟩

end

namespace Machine

/-! ## The SAD -/

theorem absDiff_le (a b : Byte) : absDiff a b ≤ 255 := by
  have ha := a.isLt
  have hb := b.isLt
  unfold absDiff
  omega

/-- The SAD of two blocks is at most 4080 (41_sad_threshold.md R130). -/
theorem sad4x4_le (a b : Block Byte) : sad4x4 a b ≤ 4080 := by
  have row : ∀ x y : Quad Byte, (Quad.zip absDiff x y).sum ≤ 1020 := by
    intro x y
    have h0 := absDiff_le x.q0 y.q0
    have h1 := absDiff_le x.q1 y.q1
    have h2 := absDiff_le x.q2 y.q2
    have h3 := absDiff_le x.q3 y.q3
    simp only [Quad.sum, Quad.zip]
    omega
  have h0 := row a.q0 b.q0
  have h1 := row a.q1 b.q1
  have h2 := row a.q2 b.q2
  have h3 := row a.q3 b.q3
  simp only [sad4x4]
  simp only [Quad.sum, Quad.zip] at *
  omega

/-- The 12 bits of `SADR` hold any SAD. -/
theorem sadr_toNat (a b : Block Byte) : (BitVec.ofNat 12 (sad4x4 a b)).toNat = sad4x4 a b := by
  have h := sad4x4_le a b
  rw [BitVec.toNat_ofNat]
  omega

/-! ## Primitives -/

theorem sadOp_ok {s : State} {rp cp : Plane} {ra ca : Anchor} {dx dy : Int} {ref cand : Block Byte}
    (hr : candBlk s rp ra 0 0 = .ok ref) (hc : candBlk s cp ca dx dy = .ok cand) :
    sadOp rp ra cp ca dx dy s = .ok () (s.setSadr (BitVec.ofNat 12 (sad4x4 ref cand))) := by
  unfold sadOp
  rw [op_bind_ok (look_ok hr), op_bind_ok (look_ok hc)]
  rfl

theorem cmpOp_ok {s : State} (h : s.dp.wacc.toNat < waccMax) :
    cmpOp s = .ok () ((s.setMask (compareMask s.dp)).setWacc
      (if compareMask s.dp then s.dp.wacc + 1 else s.dp.wacc)) := by
  unfold cmpOp
  rw [op_bind_ok (op_get s)]
  cases hm : compareMask s.dp with
  | false => simp [State.setMask, State.setWacc]
  | true =>
    have h' : ¬ s.dp.wacc.toNat = waccMax := by omega
    simp [h']

theorem ssaddOp_ok {s : State} (h : s.dp.ssum.toNat + s.dp.sadr.toNat ≤ 0xFFFFFFFF) :
    ssaddOp s = .ok () (s.setSsum (BitVec.ofNat 32 (s.dp.ssum.toNat + s.dp.sadr.toNat))) := by
  unfold ssaddOp
  rw [op_bind_ok (op_get s)]
  have h' : ¬ 0xFFFFFFFF < s.dp.ssum.toNat + s.dp.sadr.toNat := by omega
  simp only [h', if_false]
  rfl

/-- Whether all sixteen lanes have room for a block. -/
theorem blkFits_iff (a : Block Half) (b : Block Byte) :
    blkFits a b = true ↔
      ∀ r c, ((a.get r).get c).toNat + ((b.get r).get c).toNat ≤ accMax := by
  simp [blkFits, rowFits, laneFits, Quad.all_iff]

/-- A lane with a sample added, when it fits. -/
theorem laneAdd_toNat {a : Half} {v : Byte} (h : a.toNat + v.toNat ≤ accMax) :
    (laneAdd a v).toNat = a.toNat + v.toNat := by
  have hv := v.isLt
  unfold accMax at h
  simp only [laneAdd, BitVec.toNat_add, BitVec.toNat_setWidth]
  omega

theorem blkAdd_toNat {a : Block Half} {b : Block Byte} (h : blkFits a b = true) (r c : Fin 4) :
    (((blkAdd a b).get r).get c).toNat = ((a.get r).get c).toNat + ((b.get r).get c).toNat := by
  have := (blkFits_iff a b).1 h r c
  simp only [blkAdd, rowAdd, Quad.get_zip]
  exact laneAdd_toNat this

theorem accblkOp_masked {s : State} (hm : s.dp.mask = false) (cp : Plane) (ca : Anchor) (dx dy : Int) :
    accblkOp cp ca dx dy s = .ok () s := by
  unfold accblkOp
  rw [op_bind_ok (op_get s)]
  simp [hm]

theorem accblkOp_ok {s : State} {cp : Plane} {ca : Anchor} {dx dy : Int} {b : Block Byte}
    (hm : s.dp.mask = true) (hb : candBlk s cp ca dx dy = .ok b) (hf : blkFits s.dp.acc b = true) :
    accblkOp cp ca dx dy s = .ok () (s.setAcc (blkAdd s.dp.acc b)) := by
  unfold accblkOp
  rw [op_bind_ok (op_get s)]
  simp only [hm, if_true]
  rw [op_bind_ok (look_ok hb), op_bind_ok (op_get s)]
  simp [hf]

/-! ## The candidate step -/

/-- What a candidate step leaves in the datapath registers (44_filter_kernels.md R180). -/
def candLeaves (d : DataRegs) (sum : Bool) (n : Nat) (b : Block Byte) : DataRegs :=
  { d with
    sadr := BitVec.ofNat 12 n
    ssum := if sum then BitVec.ofNat 32 (d.ssum.toNat + n) else d.ssum
    mask := decide (n < d.thr.toNat)
    wacc := if n < d.thr.toNat then d.wacc + 1 else d.wacc
    acc := if n < d.thr.toNat then blkAdd d.acc b else d.acc }

/-- A candidate step whose blocks can be read and whose sums have room completes. -/
theorem candOp_ok {s : State} {cp : Plane} {ca : Anchor} {sum : Bool} {dx dy : Int}
    {ref b : Block Byte} (hr : candBlk s .src .b 0 0 = .ok ref)
    (hb : candBlk s cp ca dx dy = .ok b) (hw : s.dp.wacc.toNat < waccMax)
    (hs : s.dp.ssum.toNat + 4080 ≤ 0xFFFFFFFF) (hf : blkFits s.dp.acc b = true) :
    candOp cp ca sum dx dy s = .ok () { s with dp := candLeaves s.dp sum (sad4x4 ref b) b } := by
  have hle := sad4x4_le ref b
  have hn := sadr_toNat ref b
  unfold candOp
  rw [op_bind_ok (sadOp_ok hr hb)]
  have hmid : ∀ u : State, u.dp.wacc = s.dp.wacc → u.dp.thr = s.dp.thr → u.dp.acc = s.dp.acc →
      u.dp.sadr = BitVec.ofNat 12 (sad4x4 ref b) → candBlk u cp ca dx dy = .ok b →
      (cmpOp >>= fun _ => accblkOp cp ca dx dy) u = .ok () { u with dp := { u.dp with
        mask := decide (sad4x4 ref b < u.dp.thr.toNat)
        wacc := if sad4x4 ref b < u.dp.thr.toNat then u.dp.wacc + 1 else u.dp.wacc
        acc := if sad4x4 ref b < u.dp.thr.toNat then blkAdd u.dp.acc b else u.dp.acc } } := by
    intro u h1 h2 h3 h4 h5
    have hm : compareMask u.dp = decide (sad4x4 ref b < u.dp.thr.toNat) := by
      simp only [compareMask, h4, hn]
    rw [op_bind_ok (cmpOp_ok (by rw [h1]; exact hw))]
    by_cases hp : sad4x4 ref b < u.dp.thr.toNat
    · rw [accblkOp_ok (b := b)]
      · simp [hm, hp, State.setMask, State.setWacc, State.setAcc]
      · simp [hm, hp]
      · exact (candBlk_congr (s := u) rfl rfl rfl rfl cp ca dx dy).trans h5
      · simpa [h3] using hf
    · rw [accblkOp_masked (by simp [hm, hp])]
      simp [hm, hp, State.setMask, State.setWacc]
  cases sum with
  | false =>
    simp only [Bool.false_eq_true, if_false]
    refine (hmid (s.setSadr (BitVec.ofNat 12 (sad4x4 ref b))) rfl rfl rfl rfl
      ((candBlk_congr (s := s) rfl rfl rfl rfl cp ca dx dy).trans hb)).trans ?_
    rfl
  | true =>
    simp only [if_true]
    rw [op_bind_ok (ssaddOp_ok (by simp [hn]; omega))]
    refine (hmid ((s.setSadr (BitVec.ofNat 12 (sad4x4 ref b))).setSsum _) rfl rfl rfl rfl
      ((candBlk_congr (s := s) rfl rfl rfl rfl cp ca dx dy).trans hb)).trans ?_
    simp [candLeaves, State.setSadr, State.setSsum, hn]

end Machine

end Sys2Proof
end

