-- ==== Sys2Proof/Laws/PerInstr.lean ====
section
/-! SUPPORT. Per instruction: the word of an instruction is a candidate for its row of
spec/opcode_table.json, and for no other (spec/30_encoding.md R103, R109). -/

namespace Sys2Proof.Laws

-- One thread for all these small proofs: one for each of them would need too much memory.
set_option Elab.async false

/-- The row of spec/opcode_table.json of each constructor: its `mask` and its `match`. -/
def tableRow : Instr → Word × Word
  | .nop => (0xFFFFFFFF, 0x00000000)
  | .rbuild => (0xFFFFFFFF, 0x01000000)
  | .sad _ _ _ _ _ _ => (0xFF0003FF, 0x10000000)
  | .cmp => (0xFFFFFFFF, 0x11000000)
  | .ssadd => (0xFFFFFFFF, 0x12000000)
  | .bsad _ => (0xFFE7FFFF, 0x13000000)
  | .devl => (0xFFFFFFFF, 0x14000000)
  | .dmin => (0xFFFFFFFF, 0x15000000)
  | .thresh => (0xFFFFFFFF, 0x16000000)
  | .clra => (0xFFFFFFFF, 0x20000000)
  | .accrow _ _ _ _ _ => (0xFFE000FF, 0x21000000)
  | .accblk _ _ _ _ => (0xFFE003FF, 0x22000000)
  | .store => (0xFFFFFFFF, 0x30000000)
  | .blend => (0xFFFFFFFF, 0x31000000)
  | .diff => (0xFFFFFFFF, 0x32000000)
  | .pack _ => (0xFFFFFF00, 0x33000000)
  | .filt _ => (0xFFFFFCFF, 0x40000000)
  | .afilt _ => (0xFFFFFCFF, 0x41000000)
  | .ofilt _ _ => (0xFFE7FCFF, 0x42000000)
  | .dfilt => (0xFFFFFFFF, 0x43000000)
  | .agstart _ _ => (0xFFFFFCF0, 0x50000000)
  | .agnext => (0xFFFFFFFF, 0x51000000)
  | .agclamp _ _ => (0xFFFFFCF0, 0x52000000)
  | .tile1 => (0xFFFFFFFF, 0x58000000)
  | .tile2a => (0xFFFFFFFF, 0x59000000)
  | .tile2b => (0xFFFFFFFF, 0x5A000000)
  | .pass1 => (0xFFFFFFFF, 0x5C000000)
  | .pass2a => (0xFFFFFFFF, 0x5D000000)
  | .pass2b => (0xFFFFFFFF, 0x5E000000)
  | .runplane => (0xFFFFFFFF, 0x5F000000)

/-- A word is a candidate for a row iff `w & mask = match` (R109). -/
abbrev candidate (w : Word) (i : Instr) : Prop := w &&& (tableRow i).1 = (tableRow i).2

/-- The word of a well-formed instruction is a candidate for its own row. -/
def EncodeRow.Statement (i : Instr) : Prop := i.wf = true → candidate (encode i) i

/-- The bits of a word that no used field of format S touches. -/
theorem assemble_and_s (rp : BitVec 2) (ra : BitVec 1) (cp : BitVec 2) (ca : BitVec 1) (dx dy : BitVec 4) :
    assemble 0x10 rp ra cp ca dx dy 0 0 &&& 0xFF0003FF = 0x10000000 := by
  apply BitVec.eq_of_getLsbD_eq
  intro i hi
  simp only [assemble, BitVec.getLsbD_and, BitVec.getLsbD_append]
  interval_cases i <;> simp

theorem EncodeRow.nop : EncodeRow.Statement .nop := fun _ => by decide

theorem EncodeRow.rbuild : EncodeRow.Statement .rbuild := fun _ => by decide

theorem EncodeRow.sad (rp : Plane) (ra : Anchor) (cp : Plane) (ca : Anchor) (dx dy : Int) : EncodeRow.Statement (.sad rp ra cp ca dx dy) := fun _ => assemble_and_s _ _ _ _ _ _

theorem EncodeRow.cmp : EncodeRow.Statement .cmp := fun _ => by decide

theorem EncodeRow.ssadd : EncodeRow.Statement .ssadd := fun _ => by decide

theorem EncodeRow.bsad (cp : Plane) : EncodeRow.Statement (.bsad cp) := by
  intro h
  cases cp <;> decide

theorem EncodeRow.devl : EncodeRow.Statement .devl := fun _ => by decide

theorem EncodeRow.dmin : EncodeRow.Statement .dmin := fun _ => by decide

theorem EncodeRow.thresh : EncodeRow.Statement .thresh := fun _ => by decide

theorem EncodeRow.clra : EncodeRow.Statement .clra := fun _ => by decide

theorem EncodeRow.accrow (cp : Plane) (ca : Anchor) (dx dy : Int) (row : Fin 4) : EncodeRow.Statement (.accrow cp ca dx dy row) := by
  intro h
  simp only [candidate, tableRow, encode]
  apply BitVec.eq_of_getLsbD_eq
  intro i hi
  simp only [assemble, BitVec.getLsbD_and, BitVec.getLsbD_append]
  interval_cases i <;> simp

theorem EncodeRow.accblk (cp : Plane) (ca : Anchor) (dx dy : Int) : EncodeRow.Statement (.accblk cp ca dx dy) := by
  intro h
  simp only [candidate, tableRow, encode]
  apply BitVec.eq_of_getLsbD_eq
  intro i hi
  simp only [assemble, BitVec.getLsbD_and, BitVec.getLsbD_append]
  interval_cases i <;> simp

theorem EncodeRow.store : EncodeRow.Statement .store := fun _ => by decide

theorem EncodeRow.blend : EncodeRow.Statement .blend := fun _ => by decide

theorem EncodeRow.diff : EncodeRow.Statement .diff := fun _ => by decide

theorem EncodeRow.pack (alpha : Nat) : EncodeRow.Statement (.pack alpha) := by
  intro h
  simp only [candidate, tableRow, encode]
  apply BitVec.eq_of_getLsbD_eq
  intro i hi
  simp only [assemble, BitVec.getLsbD_and, BitVec.getLsbD_append]
  interval_cases i <;> simp

theorem EncodeRow.filt (r : Nat) : EncodeRow.Statement (.filt r) := by
  intro h
  simp only [candidate, tableRow, encode]
  apply BitVec.eq_of_getLsbD_eq
  intro i hi
  simp only [assemble, BitVec.getLsbD_and, BitVec.getLsbD_append]
  interval_cases i <;> simp

theorem EncodeRow.afilt (r : Nat) : EncodeRow.Statement (.afilt r) := by
  intro h
  simp only [candidate, tableRow, encode]
  apply BitVec.eq_of_getLsbD_eq
  intro i hi
  simp only [assemble, BitVec.getLsbD_and, BitVec.getLsbD_append]
  interval_cases i <;> simp

theorem EncodeRow.ofilt (r : Nat) (cp : Plane) : EncodeRow.Statement (.ofilt r cp) := by
  intro h
  simp only [candidate, tableRow, encode]
  apply BitVec.eq_of_getLsbD_eq
  intro i hi
  simp only [assemble, BitVec.getLsbD_and, BitVec.getLsbD_append]
  interval_cases i <;> simp

theorem EncodeRow.dfilt : EncodeRow.Statement .dfilt := fun _ => by decide

theorem EncodeRow.agstart (g : Geometry) (k : Nat) : EncodeRow.Statement (.agstart g k) := by
  intro h
  simp only [candidate, tableRow, encode]
  cases g
  · simp only [Instr.wf, walkOk, beq_iff_eq] at h
    subst h
    decide
  · simp only [Instr.wf, walkOk, beq_iff_eq] at h
    subst h
    decide
  · simp only [Instr.wf, walkOk, Bool.and_eq_true, decide_eq_true_eq] at h
    obtain ⟨h1, h2⟩ := h
    interval_cases k <;> decide

theorem EncodeRow.agnext : EncodeRow.Statement .agnext := fun _ => by decide

theorem EncodeRow.agclamp (g : Geometry) (k : Nat) : EncodeRow.Statement (.agclamp g k) := by
  intro h
  simp only [candidate, tableRow, encode]
  cases g
  · simp only [Instr.wf, walkOk, beq_iff_eq] at h
    subst h
    decide
  · simp only [Instr.wf, walkOk, beq_iff_eq] at h
    subst h
    decide
  · simp only [Instr.wf, walkOk, Bool.and_eq_true, decide_eq_true_eq] at h
    obtain ⟨h1, h2⟩ := h
    interval_cases k <;> decide

theorem EncodeRow.tile1 : EncodeRow.Statement .tile1 := fun _ => by decide

theorem EncodeRow.tile2a : EncodeRow.Statement .tile2a := fun _ => by decide

theorem EncodeRow.tile2b : EncodeRow.Statement .tile2b := fun _ => by decide

theorem EncodeRow.pass1 : EncodeRow.Statement .pass1 := fun _ => by decide

theorem EncodeRow.pass2a : EncodeRow.Statement .pass2a := fun _ => by decide

theorem EncodeRow.pass2b : EncodeRow.Statement .pass2b := fun _ => by decide

theorem EncodeRow.runplane : EncodeRow.Statement .runplane := fun _ => by decide

end Sys2Proof.Laws
end

