-- ==== Sys2Proof/Laws/Scan.lean ====
section
/-! SUPPORT. What a whole candidate scan does (spec/44_filter_kernels.md R180, R188). -/

namespace Sys2Proof.Machine

-- One thread for all these proofs: one for each of them would need too much memory.
set_option Elab.async false

theorem scanReadable_ref {s : State} {cp : Plane} {ca : Anchor} {os : List (Int × Int)}
    (h : scanReadable s cp ca os = true) : ∃ ref, candBlk s .src .b 0 0 = .ok ref := by
  simp only [scanReadable, Bool.and_eq_true] at h
  cases hr : candBlk s .src .b 0 0 with
  | ok ref => exact ⟨ref, rfl⟩
  | error c => simp [isOk, hr] at h

theorem scanReadable_cons {s : State} {cp : Plane} {ca : Anchor} {o : Int × Int}
    {os : List (Int × Int)} (h : scanReadable s cp ca (o :: os) = true) :
    (∃ b, candBlk s cp ca o.1 o.2 = .ok b) ∧ scanReadable s cp ca os = true := by
  simp only [scanReadable, Bool.and_eq_true, List.all_cons] at h ⊢
  refine ⟨?_, h.1, h.2.2⟩
  cases hr : candBlk s cp ca o.1 o.2 with
  | ok b => exact ⟨b, rfl⟩
  | error c => simp [isOk, hr] at h

theorem scanReadable_append {s : State} {cp : Plane} {ca : Anchor} {os ps : List (Int × Int)}
    (h : scanReadable s cp ca (os ++ ps) = true) :
    scanReadable s cp ca os = true ∧ scanReadable s cp ca ps = true := by
  simp only [scanReadable, Bool.and_eq_true, List.all_append] at h ⊢
  exact ⟨⟨h.1, h.2.1⟩, h.1, h.2.2⟩

/-- A scan of two lists is a scan of the first and then of the second. -/
theorem scanOp_append (cp : Plane) (ca : Anchor) (sum : Bool) (os ps : List (Int × Int)) (s : State) :
    scanOp cp ca sum (os ++ ps) s = (scanOp cp ca sum os >>= fun _ => scanOp cp ca sum ps) s := by
  induction os generalizing s with
  | nil => rfl
  | cons o os ih =>
    obtain ⟨dx, dy⟩ := o
    simp only [List.cons_append, scanOp, op_bind]
    cases candOp cp ca sum dx dy s with
    | error c t => rfl
    | ok u t =>
      have := ih t
      simpa [op_bind] using this

/-- What a scan adds to the datapath registers `d` it starts from, giving `e`. -/
structure ScanAdds (s : State) (cp : Plane) (ca : Anchor) (sum : Bool) (os : List (Int × Int))
    (d e : DataRegs) : Prop where
  wacc : e.wacc.toNat = d.wacc.toNat + passCount s cp ca os
  acc : ∀ r c, ((e.acc.get r).get c).toNat = ((d.acc.get r).get c).toNat + laneSum s cp ca os r c
  ssum : e.ssum.toNat = d.ssum.toNat + if sum then sadSum s cp ca os else 0
  last : ∀ o, os.getLast? = some o →
    e.sadr.toNat = candSad s cp ca o ∧ e.mask = candPasses s cp ca o
  thr : e.thr = d.thr
  dev : e.dev = d.dev
  devp : e.devp = d.devp
  devn : e.devn = d.devn
  ww : e.ww = d.ww
  resid : e.resid = d.resid

/-- A scan whose blocks can be read and whose sums have room completes, changes only datapath registers,
and leaves in them what `ScanAdds` says. -/
theorem scanOp_ok (s : State) (cp : Plane) (ca : Anchor) (sum : Bool) (os : List (Int × Int))
    (d : DataRegs) (hthr : d.thr = s.dp.thr) (hread : scanReadable s cp ca os = true)
    (hw : d.wacc.toNat + os.length ≤ waccMax) (hs : d.ssum.toNat + 4080 * os.length ≤ 0xFFFFFFFF)
    (hl : ∀ r c, ((d.acc.get r).get c).toNat + 255 * os.length ≤ accMax) :
    ∃ e, scanOp cp ca sum os { s with dp := d } = .ok () { s with dp := e }
      ∧ ScanAdds s cp ca sum os d e := by
  induction os generalizing d with
  | nil =>
    refine ⟨d, rfl, ⟨by simp [passCount], by simp [laneSum], by simp [sadSum], by simp, rfl, rfl, rfl,
      rfl, rfl, rfl⟩⟩
  | cons o os ih =>
    obtain ⟨ref, href⟩ := scanReadable_ref hread
    obtain ⟨⟨b, hb⟩, hrest⟩ := scanReadable_cons hread
    obtain ⟨dx, dy⟩ := o
    simp only [List.length_cons] at hw hs hl
    have hsad : candSad s cp ca (dx, dy) = sad4x4 ref b := by simp [candSad, href, hb]
    have hle := sad4x4_le ref b
    have hbyte : ∀ r c, ((b.get r).get c).toNat ≤ 255 := by
      intro r c
      have := ((b.get r).get c).isLt
      omega
    have hf : blkFits d.acc b = true := by
      rw [blkFits_iff]
      intro r c
      have h1 := hl r c
      have h2 := hbyte r c
      omega
    have hw1 : d.wacc.toNat < waccMax := by omega
    have hs1 : d.ssum.toNat + 4080 ≤ 0xFFFFFFFF := by
      linarith only [hs]
    have hstep : candOp cp ca sum dx dy { s with dp := d } =
        .ok () { s with dp := candLeaves d sum (sad4x4 ref b) b } :=
      candOp_ok (s := { s with dp := d })
        ((candBlk_congr (s := s) rfl rfl rfl rfl .src .b 0 0).trans href)
        ((candBlk_congr (s := s) rfl rfl rfl rfl cp ca dx dy).trans hb)
        hw1 hs1 hf
    have hpass : candPasses s cp ca (dx, dy) = decide (sad4x4 ref b < d.thr.toNat) := by
      simp only [candPasses, hsad, hthr]
    have hsample : ∀ r c, candSample s cp ca (dx, dy) r c = ((b.get r).get c).toNat := by
      intro r c; simp [candSample, hb]
    generalize hd' : candLeaves d sum (sad4x4 ref b) b = d' at hstep
    have hwacc : d'.wacc.toNat = d.wacc.toNat + if sad4x4 ref b < d.thr.toNat then 1 else 0 := by
      rw [← hd']
      simp only [candLeaves]
      split
      · rw [BitVec.toNat_add]
        simp only [waccMax] at hw
        simp
        omega
      · simp
    have hacc : ∀ r c, ((d'.acc.get r).get c).toNat = ((d.acc.get r).get c).toNat
        + if sad4x4 ref b < d.thr.toNat then ((b.get r).get c).toNat else 0 := by
      intro r c
      rw [← hd']
      simp only [candLeaves]
      split
      · exact blkAdd_toNat hf r c
      · simp
    have hssum : d'.ssum.toNat = d.ssum.toNat + if sum then sad4x4 ref b else 0 := by
      rw [← hd']
      simp only [candLeaves]
      split
      · rw [BitVec.toNat_ofNat]; omega
      · simp
    have hthr' : d'.thr = d.thr := by rw [← hd']; rfl
    have hsadr' : d'.sadr.toNat = sad4x4 ref b := by rw [← hd']; exact sadr_toNat ref b
    have hmask' : d'.mask = decide (sad4x4 ref b < d.thr.toNat) := by rw [← hd']; rfl
    have hrest4 : d'.dev = d.dev ∧ d'.devp = d.devp ∧ d'.devn = d.devn ∧ d'.ww = d.ww
        ∧ d'.resid = d.resid := by rw [← hd']; exact ⟨rfl, rfl, rfl, rfl, rfl⟩
    clear hd'
    obtain ⟨e, he, hadd⟩ := ih d' (hthr'.trans hthr) hrest
      (by rw [hwacc]; split <;> omega) (by rw [hssum]; split <;> omega)
      (by
        intro r c
        have h1 := hl r c
        have h2 := hbyte r c
        rw [hacc]
        split <;> omega)
    refine ⟨e, ?_, ?_⟩
    · simp only [scanOp]
      rw [op_bind_ok hstep]
      exact he
    · refine ⟨?_, ?_, ?_, ?_, hadd.thr.trans hthr', hadd.dev.trans hrest4.1, hadd.devp.trans hrest4.2.1,
        hadd.devn.trans hrest4.2.2.1, hadd.ww.trans hrest4.2.2.2.1, hadd.resid.trans hrest4.2.2.2.2⟩
      · rw [hadd.wacc, hwacc]
        simp only [passCount, List.filter_cons, hpass, decide_eq_true_eq]
        split
        · simp; omega
        · simp
      · intro r c
        rw [hadd.acc, hacc]
        simp only [laneSum, List.filter_cons, hpass, decide_eq_true_eq]
        split
        · simp [hsample]; omega
        · simp
      · rw [hadd.ssum, hssum]
        cases sum with
        | false => simp
        | true => simp [sadSum, hsad]; omega
      · intro o ho
        cases os with
        | nil =>
          simp only [List.getLast?_singleton, Option.some.injEq] at ho
          subst ho
          have hz : e = d' := by
            simp only [scanOp, op_pure, EStateM.Result.ok.injEq, true_and] at he
            have := congrArg State.dp he
            exact this.symm
          rw [hz, hsad, hpass]
          exact ⟨hsadr', hmask'⟩
        | cons p os => exact hadd.last o (by simpa [List.getLast?_cons_cons] using ho)

end Sys2Proof.Machine
end

