-- ==== Sys2Proof/Laws/Walk.lean ====
section
/-! SUPPORT. What the address generator does (spec/45_scan_driver.md R202 to R205), and how a walk runs. -/

namespace Sys2Proof.Machine

/-! ## Placing the walk -/

@[simp] theorem agclamp_cfg (s : State) (g : Geometry) : (agclamp s g).cfg = s.cfg := rfl
@[simp] theorem agclamp_dp (s : State) (g : Geometry) : (agclamp s g).dp = s.dp := rfl
@[simp] theorem agclamp_tab (s : State) (g : Geometry) : (agclamp s g).tab = s.tab := rfl
@[simp] theorem agclamp_flt (s : State) (g : Geometry) : (agclamp s g).flt = s.flt := rfl
@[simp] theorem agclamp_mem (s : State) (g : Geometry) : (agclamp s g).mem = s.mem := rfl
@[simp] theorem agclamp_plat (s : State) (g : Geometry) : (agclamp s g).plat = s.plat := rfl
@[simp] theorem agclamp_port (s : State) (g : Geometry) : (agclamp s g).port = s.port := rfl
@[simp] theorem agclamp_reply (s : State) (g : Geometry) : (agclamp s g).reply = s.reply := rfl
@[simp] theorem agclamp_tx (s : State) (g : Geometry) : (agclamp s g).ag.tx = s.ag.tx := rfl
@[simp] theorem agclamp_ty (s : State) (g : Geometry) : (agclamp s g).ag.ty = s.ag.ty := rfl
@[simp] theorem agclamp_agg (s : State) (g : Geometry) : (agclamp s g).ag.agg = s.ag.agg := rfl
@[simp] theorem agclamp_agk (s : State) (g : Geometry) : (agclamp s g).ag.agk = s.ag.agk := rfl
@[simp] theorem agclamp_agdone (s : State) (g : Geometry) : (agclamp s g).ag.agdone = s.ag.agdone := rfl

@[simp] theorem enterTile_cfg (s : State) (g : Geometry) (x y : Nat) : (enterTile s g x y).cfg = s.cfg := rfl
@[simp] theorem enterTile_dp (s : State) (g : Geometry) (x y : Nat) : (enterTile s g x y).dp = s.dp := rfl
@[simp] theorem enterTile_tab (s : State) (g : Geometry) (x y : Nat) : (enterTile s g x y).tab = s.tab := rfl
@[simp] theorem enterTile_flt (s : State) (g : Geometry) (x y : Nat) : (enterTile s g x y).flt = s.flt := rfl
@[simp] theorem enterTile_mem (s : State) (g : Geometry) (x y : Nat) : (enterTile s g x y).mem = s.mem := rfl
@[simp] theorem enterTile_plat (s : State) (g : Geometry) (x y : Nat) :
    (enterTile s g x y).plat = s.plat := rfl
@[simp] theorem enterTile_port (s : State) (g : Geometry) (x y : Nat) :
    (enterTile s g x y).port = s.port := rfl
@[simp] theorem enterTile_reply (s : State) (g : Geometry) (x y : Nat) :
    (enterTile s g x y).reply = s.reply := rfl
@[simp] theorem enterTile_tx (s : State) (g : Geometry) (x y : Nat) :
    (enterTile s g x y).ag.tx = BitVec.ofNat 32 x := rfl
@[simp] theorem enterTile_ty (s : State) (g : Geometry) (x y : Nat) :
    (enterTile s g x y).ag.ty = BitVec.ofNat 32 y := rfl
@[simp] theorem enterTile_agg (s : State) (g : Geometry) (x y : Nat) :
    (enterTile s g x y).ag.agg = s.ag.agg := rfl
@[simp] theorem enterTile_agk (s : State) (g : Geometry) (x y : Nat) :
    (enterTile s g x y).ag.agk = s.ag.agk := rfl
@[simp] theorem enterTile_agdone (s : State) (g : Geometry) (x y : Nat) :
    (enterTile s g x y).ag.agdone = false := rfl

/-! ## The three operations -/

/-- A geometry that does not fit ends `AGSTART` with `CFG` before any change. -/
theorem agstartOp_error {s : State} {g : Geometry} {k : Nat} (h : geomOk s.cfg g k = false) :
    agstartOp g k s = .error .cfg s := by
  unfold agstartOp
  rw [op_bind_ok (op_get s)]
  simp [h]

/-- What `AGSTART` leaves when the geometry fits. -/
theorem agstartOp_ok {s : State} {g : Geometry} {k : Nat} (h : geomOk s.cfg g k = true) :
    agstartOp g k s = .ok ()
      (let t := s.setLatch g (BitVec.ofNat 4 k)
       if walkCont g (walkStart g k).1 s.cfg.width.toNat && walkCont g (walkStart g k).2 s.cfg.height.toNat then
        enterTile t g (walkStart g k).1 (walkStart g k).2
       else (t.setTile (BitVec.ofNat 32 (walkStart g k).1) (BitVec.ofNat 32 (walkStart g k).2)).setAgdone
        true) := by
  unfold agstartOp
  rw [op_bind_ok (op_get s)]
  simp only [h, if_true]
  split
  · rfl
  · simp

/-- `AGNEXT` after the end of a walk does nothing. -/
theorem agnextOp_done {s : State} (h : s.ag.agdone = true) : agnextOp s = .ok () s := by
  unfold agnextOp
  rw [op_bind_ok (op_get s)]
  simp [h]

/-- A geometry that no longer fits ends `AGNEXT` with `CFG` before any change. -/
theorem agnextOp_error {s : State} (hd : s.ag.agdone = false)
    (h : geomOk s.cfg s.ag.agg s.ag.agk.toNat = false) : agnextOp s = .error .cfg s := by
  unfold agnextOp
  rw [op_bind_ok (op_get s)]
  simp [hd, h]

/-- What `AGNEXT` leaves during a walk. -/
theorem agnextOp_ok {s : State} (hd : s.ag.agdone = false)
    (h : geomOk s.cfg s.ag.agg s.ag.agk.toNat = true) :
    agnextOp s = .ok ()
      (if walkCont s.ag.agg (s.ag.tx.toNat + 4) s.cfg.width.toNat then
        enterTile s s.ag.agg (s.ag.tx.toNat + 4) s.ag.ty.toNat
       else if walkCont s.ag.agg (s.ag.ty.toNat + 4) s.cfg.height.toNat then
        enterTile s s.ag.agg (walkStart s.ag.agg s.ag.agk.toNat).1 (s.ag.ty.toNat + 4)
       else s.setAgdone true) := by
  unfold agnextOp
  rw [op_bind_ok (op_get s)]
  simp only [hd, h, if_true, Bool.false_eq_true, if_false]
  split
  · simp
  · split <;> simp

theorem agclampOp_error {s : State} {g : Geometry} {k : Nat} (h : geomOk s.cfg g k = false) :
    agclampOp g k s = .error .cfg s := by
  unfold agclampOp
  rw [op_bind_ok (op_get s)]
  simp [h]

theorem agclampOp_ok {s : State} {g : Geometry} {k : Nat} (h : geomOk s.cfg g k = true) :
    agclampOp g k s = .ok () (agclamp (s.setLatch g (BitVec.ofNat 4 k)) g) := by
  unfold agclampOp
  rw [op_bind_ok (op_get s)]
  simp [h]

/-! ## Running a walk -/

/-- A finished walk runs no tile. -/
theorem walkTiles_done {tile : Op Unit} {s : State} (h : s.ag.agdone = true) (n : Nat) :
    walkTiles tile n s = .ok () s := by
  cases n with
  | zero => rfl
  | succ n =>
    simp only [walkTiles]
    rw [op_bind_ok (op_get s)]
    simp [h]

/-- A walk that has a current tile runs it, steps, and goes on. -/
theorem walkTiles_step {tile : Op Unit} {s : State} (h : s.ag.agdone = false) (n : Nat) :
    walkTiles tile (n + 1) s =
      (tile >>= fun _ => agnextOp >>= fun _ => walkTiles tile n) s := by
  simp only [walkTiles]
  rw [op_bind_ok (op_get s)]
  simp [h]

/-- A relation that the tile operation and `AGNEXT` keep, a walk keeps. -/
theorem keeps_walkTiles {R : State → State → Prop} (hR : Frame R) {tile : Op Unit} (ht : Keeps R tile)
    (hn : Keeps R agnextOp) (n : Nat) : Keeps R (walkTiles tile n) := by
  induction n with
  | zero => exact keeps_pure hR ()
  | succ n ih =>
    refine keeps_get_bind fun s => ?_
    split
    · exact hR.refl s
    · exact keeps_bind hR ht (fun _ => keeps_bind hR hn fun _ => ih) s

/-- A relation that the start of a walk, the tile operation and `AGNEXT` keep, the whole walk keeps. -/
theorem keeps_walkOp {R : State → State → Prop} (hR : Frame R) {g : Geometry} {k : Nat} {tile : Op Unit}
    (hs : Keeps R (agstartOp g k)) (ht : Keeps R tile) (hn : Keeps R agnextOp) :
    Keeps R (walkOp g k tile) :=
  keeps_bind hR hs fun _ => keeps_get_bind fun s => keeps_walkTiles hR ht hn _ s

end Sys2Proof.Machine
end

