-- ==== Sys2Proof/Machine/Assembler.lean ====
section
/-! DEFINITION. The host's side of the command interface: the assembler syntax with its macro
(spec/30_encoding.md R111, R112), the per-plane dispatch (spec/46_setup.md R243) and the start-up sequence
(spec/70_reset_and_hazards.md R282). -/

namespace Sys2Proof.Machine

/-- The meaning of one line of a listing. -/
inductive AsmLine where
  /-- Nothing but blanks and a comment. -/
  | blank
  /-- Commands: one, or the three of the macro `CAND`. -/
  | commands (is : List Instr)
  /-- `WR REG, value` or `RD REG`. -/
  | host (a : HostAction)
  deriving DecidableEq, Repr

/-- The text before a comment (R111). -/
def beforeComment : List Char → List Char
  | [] => []
  | c :: rest => if c = ';' then [] else c :: beforeComment rest

/-- Leading blanks removed. -/
def dropBlanks : List Char → List Char
  | [] => []
  | c :: rest => if c = ' ' then dropBlanks rest else c :: rest

/-- Blanks removed at both ends. -/
def trimBlanks (t : List Char) : List Char := (dropBlanks (dropBlanks t).reverse).reverse

/-- The parts of a text between occurrences of a character. -/
def splitAtChar (sep : Char) : List Char → List (List Char)
  | [] => [[]]
  | c :: rest =>
    match splitAtChar sep rest with
    | [] => [[c]]
    | part :: parts => if c = sep then [] :: part :: parts else (c :: part) :: parts

/-- The mnemonic of a line and its operands, split at commas. -/
def lineParts (t : List Char) : List Char × List (List Char) :=
  match splitAtChar ' ' (trimBlanks (beforeComment t)) with
  | [] => ([], [])
  | m :: [] => (m, [])
  | m :: _ =>
    (m, (splitAtChar ',' ((trimBlanks (beforeComment t)).drop m.length)).map trimBlanks)

/-- A digit in a base up to sixteen. -/
def digitOf (base : Nat) (c : Char) : Option Nat :=
  let n :=
    if '0' ≤ c ∧ c ≤ '9' then c.toNat - '0'.toNat
    else if 'A' ≤ c ∧ c ≤ 'F' then c.toNat - 'A'.toNat + 10
    else if 'a' ≤ c ∧ c ≤ 'f' then c.toNat - 'a'.toNat + 10
    else base
  if n < base then some n else none

/-- A numeral, most significant digit first, after a value already read. -/
def readDigits (base acc : Nat) : List Char → Option Nat
  | [] => some acc
  | c :: rest =>
    match digitOf base c with
    | some d => readDigits base (acc * base + d) rest
    | none => none

/-- A decimal numeral; none without a digit. -/
def readDecimal : List Char → Option Nat
  | [] => none
  | t => readDigits 10 0 t

/-- A number: decimal with an optional sign, or `0x` and hexadecimal (R111). -/
def readInt : List Char → Option Int
  | '-' :: rest => (readDecimal rest).map fun n => -(n : Int)
  | '+' :: rest => (readDecimal rest).map fun n => (n : Int)
  | ['0', 'x'] => none
  | '0' :: 'x' :: rest => (readDigits 16 0 rest).map fun n => (n : Int)
  | t => (readDecimal t).map fun n => (n : Int)

/-- A number for a field or an index without negative values. -/
def readNat (t : List Char) : Option Nat :=
  (readInt t).bind fun v => if 0 ≤ v then some v.toNat else none

/-- A plane name (R111). -/
def readPlane (t : List Char) : Option Plane :=
  if t = ['S', 'R', 'C'] then some .src
  else if t = ['P', 'R', 'E', 'V'] then some .prev
  else if t = ['N', 'E', 'X', 'T'] then some .next
  else if t = ['D', 'S', 'T'] then some .dst
  else none

/-- An anchor name (R111). -/
def readAnchor (t : List Char) : Option Anchor :=
  if t = ['S'] then some .s else if t = ['B'] then some .b else none

/-- `PLANE.ANCHOR` (R111). -/
def readPlaneAnchor (t : List Char) : Option (Plane × Anchor) :=
  match splitAtChar '.' t with
  | [p, a] =>
    match readPlane p, readAnchor a with
    | some p, some a => some (p, a)
    | _, _ => none
  | _ => none

/-- `P1`, `P2A`, `P2B` (R111). -/
def readGeometry (t : List Char) : Option Geometry :=
  if t = ['P', '1'] then some .p1
  else if t = ['P', '2', 'A'] then some .p2a
  else if t = ['P', '2', 'B'] then some .p2b
  else none

/-- A number below a bound. -/
def readBelow (bound : Nat) (t : List Char) : Option Nat :=
  (readNat t).bind fun n => if n < bound then some n else none

/-- A lane row 0..3. -/
def readRow (t : List Char) : Option (Fin 4) :=
  (readNat t).bind fun n => if h : n < 4 then some ⟨n, h⟩ else none

/-- The operations without operands, by mnemonic (R111, last row). -/
def plainOps : List (String × Instr) :=
  [("NOP", .nop), ("RBUILD", .rbuild), ("CMP", .cmp), ("SSADD", .ssadd), ("DEVL", .devl),
   ("DMIN", .dmin), ("THRESH", .thresh), ("CLRA", .clra), ("STORE", .store), ("BLEND", .blend),
   ("DIFF", .diff), ("DFILT", .dfilt), ("AGNEXT", .agnext), ("TILE1", .tile1),
   ("TILE2A", .tile2a), ("TILE2B", .tile2b), ("PASS1", .pass1), ("PASS2A", .pass2a),
   ("PASS2B", .pass2b), ("RUNPLANE", .runplane)]

/-- The offsets of the registers with one word each, by name (10_state.md R22). -/
def regNames : List (String × Nat) :=
  [("ID", 0x000), ("CMD", 0x004), ("STATUS", 0x008), ("CTRL", 0x00C), ("FINFO", 0x010),
   ("SRC_BASE", 0x020), ("SRC_STRIDE", 0x024), ("DST_BASE", 0x028), ("DST_STRIDE", 0x02C),
   ("PREV_BASE", 0x030), ("PREV_STRIDE", 0x034), ("NEXT_BASE", 0x038), ("NEXT_STRIDE", 0x03C),
   ("WMAP_BASE", 0x040), ("WMAP_STRIDE", 0x044), ("WIDTH", 0x048), ("HEIGHT", 0x04C),
   ("LAMBDA", 0x050), ("TMAX", 0x054), ("MODE", 0x058), ("TP1", 0x05C), ("TX", 0x060),
   ("TY", 0x064), ("SX", 0x068), ("SY", 0x06C), ("BX", 0x070), ("BY", 0x074),
   ("AGSTATE", 0x078), ("THR", 0x080), ("DEV", 0x084), ("DEVP", 0x088), ("DEVN", 0x08C),
   ("SADR", 0x090), ("SSUM", 0x094), ("WACC", 0x098), ("WW", 0x09C), ("RESID", 0x0A0)]

/-- The entry of a table of names. -/
def lookupName {α : Type} (t : List Char) : List (String × α) → Option α
  | [] => none
  | (n, v) :: rest => if n.toList = t then some v else lookupName t rest

/-- The index in `[n]`, below a bound: the part of a register name after its `[`. -/
def readIndex (bound : Nat) (t : List Char) : Option Nat :=
  match splitAtChar ']' t with
  | [n, []] => readBelow bound n
  | _ => none

/-- The offset of a register by its name in 10_state.md R22, `ACCW[r][h]` and `RECIPW[n]` among them. -/
def regOffset (t : List Char) : Option Nat :=
  match splitAtChar '[' t with
  | [m, n] =>
    if m = "RECIPW".toList then (readIndex 1024 n).map fun n => 0x1000 + 4 * n else none
  | [m, r, h] =>
    if m = "ACCW".toList then
      (readIndex 4 r).bind fun r => (readIndex 2 h).map fun h => 0x0C0 + 8 * r + 4 * h
    else none
  | _ => lookupName t regNames

/-- A geometry with its sub-lattice index: only `P2B` is written with one (R111). -/
def readGeometryIndex (a b : List Char) : Option (Geometry × Nat) :=
  (readGeometry a).bind fun g => if g = .p2b then (readNat b).map fun k => (g, k) else none

/-- One operation with operands (R111): operand order and the fields they fill. -/
def readOperands (m : List Char) (ops : List (List Char)) : Option (List Instr) :=
  match ops with
  | [] => (lookupName m plainOps).map fun i => [i]
  | [a] =>
    if m = "BSAD".toList then (readPlane a).map fun p => [.bsad p]
    else if m = "PACK".toList then (readNat a).map fun n => [.pack n]
    else if m = "FILT".toList then (readNat a).map fun n => [.filt n]
    else if m = "AFILT".toList then (readNat a).map fun n => [.afilt n]
    else if m = "AGSTART".toList then (readGeometry a).map fun g => [.agstart g 0]
    else if m = "AGCLAMP".toList then (readGeometry a).map fun g => [.agclamp g 0]
    else none
  | [a, b] =>
    if m = "OFILT".toList then
      (readNat a).bind fun n => (readPlane b).map fun p => [.ofilt n p]
    else if m = "AGSTART".toList then
      (readGeometryIndex a b).map fun g => [.agstart g.1 g.2]
    else if m = "AGCLAMP".toList then
      (readGeometryIndex a b).map fun g => [.agclamp g.1 g.2]
    else none
  | [a, b, c] =>
    (readPlaneAnchor a).bind fun p => (readInt b).bind fun dx => (readInt c).bind fun dy =>
      if m = "ACCBLK".toList then some [.accblk p.1 p.2 dx dy]
      else if m = "CAND".toList then
        some [.sad .src .b p.1 p.2 dx dy, .cmp, .accblk p.1 p.2 dx dy]
      else none
  | [a, b, c, d] =>
    if m = "SAD".toList then
      (readPlaneAnchor a).bind fun p => (readPlaneAnchor b).bind fun q =>
        (readInt c).bind fun dx => (readInt d).map fun dy => [.sad p.1 p.2 q.1 q.2 dx dy]
    else if m = "ACCROW".toList then
      (readPlaneAnchor a).bind fun p => (readInt b).bind fun dx =>
        (readInt c).bind fun dy => (readRow d).map fun row => [.accrow p.1 p.2 dx dy row]
    else none
  | _ => none

/-- A line of a listing (R111, R112); none if it is not one, or if an operand is not a legal field value
(R108). DESIGN CHOICE (log entry 18): R111 does not say what `WR REG, value` writes for a value outside
0..2^32 − 1, and R21 knows only 32-bit values; here the value is reduced modulo 2^32, so a negative one is
written in two's complement. -/
def readLine (t : List Char) : Option AsmLine :=
  match lineParts t with
  | ([], _) => some .blank
  | (m, ops) =>
    if m = "WR".toList then
      match ops with
      | [r, v] =>
        (regOffset r).bind fun off => (readInt v).map fun n =>
          .host (.write (BitVec.ofNat 32 off) (BitVec.ofInt 32 n))
      | _ => none
    else if m = "RD".toList then
      match ops with
      | [r] => (regOffset r).map fun off => .host (.read (BitVec.ofNat 32 off))
      | _ => none
    else
      match readOperands m ops with
      | some is => if is.all Instr.wf then some (.commands is) else none
      | none => none

/-- The host actions of a line: each command is a write of its word to `CMD` (R112, 10_state.md R23). -/
def lineActions : AsmLine → List HostAction
  | .blank => []
  | .commands is => is.map fun i => commandAction (encode i)
  | .host a => [a]

/-- A port write of a 32-bit value. -/
def portWrite (off : Nat) (v : Word) : HostAction := .write (BitVec.ofNat 32 off) v

/-- The start-up sequence before the first plane, steps (1) and (2): reset, then `RBUILD` (R282). -/
def startUp : List HostAction := [portWrite 0x00C 1, commandAction (encode .rbuild)]

/-- The host's sequence for one plane (R243): descriptors and sizes, the planes of the modes in use, the
parameters, `RUNPLANE`, and the read of `STATUS`. -/
def planeDispatch (c : CfgRegs) : List HostAction :=
  [portWrite 0x020 c.srcBase, portWrite 0x024 c.srcStride, portWrite 0x028 c.dstBase,
   portWrite 0x02C c.dstStride, portWrite 0x048 (c.width.setWidth 32),
   portWrite 0x04C (c.height.setWidth 32)]
  ++ (if modeT c then
        [portWrite 0x030 c.prevBase, portWrite 0x034 c.prevStride, portWrite 0x038 c.nextBase,
         portWrite 0x03C c.nextStride]
      else [])
  ++ (if modeAO c then [portWrite 0x040 c.wmapBase, portWrite 0x044 c.wmapStride] else [])
  ++ [portWrite 0x050 (c.lambda.setWidth 32), portWrite 0x058 (modeWord c),
      portWrite 0x05C (c.tp1.setWidth 32), portWrite 0x054 (c.tmax.setWidth 32),
      commandAction (encode .runplane), .read 0x008]

end Sys2Proof.Machine
end

