-- ==== Sys2Proof/Tests/Slice0.lean ====
section
/-! SUPPORT. The model's own tests: ill-formed terms are refused, the words of spec/30_encoding.md R113 and
spec/95_test_vectors.md section 6 decode as the spec says, small steps give the values of
spec/95_test_vectors.md, and each statement's hypotheses are met by a concrete state. -/

namespace Sys2Proof.Tests

open Machine

-- One thread for all these kernel evaluations: one for each of them would need too much memory.
set_option Elab.async false

/-! ## Well-formedness: one ill-formed term for each check -/

theorem test_wf_refuses :
    [Instr.sad .src .b .src .s 4 0, .sad .src .b .src .s 0 (-4), .bsad .src, .bsad .dst,
      .accrow .src .s (-4) 0 0, .accrow .src .s 0 4 0, .accblk .src .s 5 0, .accblk .src .s 0 (-8),
      .pack 0, .pack 256, .filt 1, .filt 4, .afilt 0, .afilt 1, .ofilt 1 .src, .ofilt 2 .dst,
      .agstart .p1 1, .agstart .p2a 1, .agstart .p2b 0, .agstart .p2b 9, .agclamp .p1 8,
      .agclamp .p2b 9].all (fun i => !i.wf) = true := by decide

theorem test_wf_accepts :
    [Instr.sad .dst .b .next .s (-3) 3, .bsad .prev, .bsad .next, .accrow .dst .b 3 (-3) 3, .pack 1,
      .pack 255, .filt 0, .filt 3, .afilt 2, .ofilt 3 .next, .agstart .p2a 0, .agstart .p2b 8,
      .agclamp .p2b 1].all Instr.wf = true := by decide

/-! ## Decoding (30_encoding.md R113, 95_test_vectors.md section 6) -/

theorem test_decode_setup_and_sad :
    decode 0x00000000 = .ok .nop ∧ decode 0x01000000 = .ok .rbuild ∧
    decode 0x10200000 = .ok (.sad .src .b .src .s 0 0) ∧
    decode 0x10204000 = .ok (.sad .src .b .src .s 1 0) ∧
    decode 0x10334C00 = .ok (.sad .src .b .next .s (-3) 3) ∧
    decode 0x10F34C00 = .ok (.sad .dst .b .next .s (-3) 3) ∧
    decode 0x11000000 = .ok .cmp ∧ decode 0x12000000 = .ok .ssadd ∧
    decode 0x13080000 = .ok (.bsad .prev) ∧ decode 0x13100000 = .ok (.bsad .next) ∧
    decode 0x14000000 = .ok .devl ∧ decode 0x15000000 = .ok .dmin ∧ decode 0x16000000 = .ok .thresh := by
  decide

theorem test_decode_accumulate_and_write_back :
    decode 0x20000000 = .ok .clra ∧ decode 0x21004200 = .ok (.accrow .src .s 1 0 2) ∧
    decode 0x22000000 = .ok (.accblk .src .s 0 0) ∧ decode 0x2203C000 = .ok (.accblk .src .s (-1) 0) ∧
    decode 0x30000000 = .ok .store ∧ decode 0x31000000 = .ok .blend ∧ decode 0x32000000 = .ok .diff ∧
    decode 0x33000001 = .ok (.pack 1) ∧ decode 0x33000008 = .ok (.pack 8) := by decide

theorem test_decode_kernels :
    decode 0x40000000 = .ok (.filt 0) ∧ decode 0x40000200 = .ok (.filt 2) ∧
    decode 0x40000300 = .ok (.filt 3) ∧ decode 0x41000200 = .ok (.afilt 2) ∧
    decode 0x41000300 = .ok (.afilt 3) ∧ decode 0x42000200 = .ok (.ofilt 2 .src) ∧
    decode 0x42080300 = .ok (.ofilt 3 .prev) ∧ decode 0x42100200 = .ok (.ofilt 2 .next) ∧
    decode 0x43000000 = .ok .dfilt := by decide

theorem test_decode_scan_driver :
    decode 0x50000000 = .ok (.agstart .p1 0) ∧ decode 0x50000100 = .ok (.agstart .p2a 0) ∧
    decode 0x50000205 = .ok (.agstart .p2b 5) ∧ decode 0x51000000 = .ok .agnext ∧
    decode 0x52000000 = .ok (.agclamp .p1 0) ∧ decode 0x52000208 = .ok (.agclamp .p2b 8) ∧
    decode 0x58000000 = .ok .tile1 ∧ decode 0x59000000 = .ok .tile2a ∧
    decode 0x5A000000 = .ok .tile2b ∧ decode 0x5C000000 = .ok .pass1 ∧
    decode 0x5D000000 = .ok .pass2a ∧ decode 0x5E000000 = .ok .pass2b ∧
    decode 0x5F000000 = .ok .runplane := by decide

theorem test_decode_illegal :
    decode 0x02000000 = .error .unknownOpcode ∧ decode 0xFF000000 = .error .unknownOpcode ∧
    decode 0x11000001 = .error .unusedBitSet ∧ decode 0x10200001 = .error .unusedBitSet ∧
    decode 0x50000210 = .error .unusedBitSet ∧
    [0x10010000, 0x10002000, 0x40000100, 0x41000000, 0x33000000, 0x13000000, 0x13180000, 0x42180200,
      0x50000200, 0x50000209, 0x50000001, 0x50000300].all
      (fun w => decide (decode w = .error .reservedField)) = true := by decide

theorem test_decodeTableWord :
    decodeTableWord 32 0x42080300 = some (.ofilt 3 .prev) ∧ decodeTableWord 32 0x13000000 = none := by
  decide

theorem test_assembler :
    readLine "SAD SRC.B, NEXT.S, -3, +3 ; a comment".toList =
      some (.commands [.sad .src .b .next .s (-3) 3]) ∧
    readLine "WR WIDTH, 0x10".toList = some (.host (.write 0x048 16)) ∧
    readLine "RD ACCW[1][1]".toList = some (.host (.read 0x0CC)) ∧
    readLine "PACK +3".toList = some (.commands [.pack 3]) ∧
    readLine "AGSTART P2B, 5".toList = some (.commands [.agstart .p2b 5]) ∧
    readLine "FILT 1".toList = none := by decide

/-! ## States -/

/-- Consecutive bytes from an address. -/
def cells (base : Nat) (bytes : List Nat) : Memory :=
  bytes.mapIdx fun i b => (base + i, BitVec.ofNat 8 b)

/-- The state a command answers; the reset state if it answers none. -/
def after (i : Instr) (s : State) : State :=
  match exec i s with
  | .next t => t
  | .fault _ => State.reset
  | .refused _ => State.reset

/-- An 8×8 configuration: source, previous and next frame at 0, destination at 0x1000, weight map at 0x2000,
radius 2. -/
def cfg8 : CfgRegs :=
  { CfgRegs.reset with
    width := 8, height := 8, srcStride := 8, prevStride := 8, nextStride := 8
    dstBase := 0x1000, dstStride := 8, wmapBase := 0x2000, wmapStride := 32
    lambda := 1126, tmax := 96, modeR1 := 2 }

/-- A tile in the middle of the plane, where the anchors of all three geometries agree. -/
def ag22 : AgRegs :=
  { AgRegs.reset with
    tx := 2, ty := 2, searchX := 2, searchY := 2, baseX := 2, baseY := 2, agg := .p2b, agk := 4 }

/-- A configured unit on an 8×8 plane with the table built, `THR` = 1, a count of 1 and nothing listed in
memory. -/
def ready : State :=
  { State.reset with
    cfg := cfg8, ag := ag22, tab := ⟨recipTable, true⟩
    dp := { DataRegs.reset with thr := 1, wacc := 1 } }

/-- As `ready`, with a source whose rows all lie at the same eight listed bytes, all 7. -/
def uniform : State :=
  { ready with
    cfg := { cfg8 with srcStride := 0, prevStride := 0, nextStride := 0 }
    mem := cells 0 [7, 7, 7, 7, 7, 7, 7, 7] }

/-- Plane Q of 95_test_vectors.md. -/
def planeQ : List Nat :=
  [100, 103, 106, 109, 101, 104, 107, 110, 105, 108, 100, 103, 106, 109, 101, 104,
   110, 102, 105, 108, 100, 103, 106, 109, 104, 107, 110, 102, 105, 108, 100, 103,
   109, 101, 104, 107, 110, 102, 105, 108, 103, 106, 109, 101, 104, 107, 110, 102,
   108, 100, 103, 106, 109, 101, 104, 107, 102, 105, 108, 100, 103, 106, 109, 101]

/-- As `ready`, with plane Q as the source. -/
def onQ : State := { ready with mem := cells 0 planeQ }

/-- The block of plane Q at (2,2). -/
def blockQ : Block Half :=
  ⟨⟨105, 108, 100, 103⟩, ⟨110, 102, 105, 108⟩, ⟨104, 107, 110, 102⟩, ⟨109, 101, 104, 107⟩⟩

/-- As `ready`, with every destination byte of the middle block equal to 200, and the lanes of
`blockQ`. -/
def onDst200 : State :=
  { ready with
    dp := { ready.dp with acc := blockQ }
    mem := (cells 0x1012 [200, 200, 200, 200] ++ cells 0x101A [200, 200, 200, 200]
      ++ cells 0x1022 [200, 200, 200, 200] ++ cells 0x102A [200, 200, 200, 200]) }

/-! ## Single steps (95_test_vectors.md sections 2 to 8) -/

theorem test_rbuild :
    ((after .rbuild State.reset).tab.recip.getD 25 0).toNat = 1311 ∧
    ((after .rbuild State.reset).tab.recip.getD 1023 0).toNat = 32 := by decide +kernel

/-- A2. -/
theorem test_sad : (after (.sad .src .b .src .s 1 0) onQ).dp.sadr.toNat = 73 := by decide +kernel

/-- A7. -/
theorem test_sad_oob : (after (.sad .src .b .src .s 3 0) onQ).flt = ⟨true, 3, 0x1020C000⟩ := by
  decide +kernel

/-- B3. -/
theorem test_cmp :
    (after .cmp { ready with dp := { ready.dp with sadr := 94, thr := 95, wacc := 5 } }).dp.wacc = 6 := by
  decide +kernel

/-- B6. -/
theorem test_cmp_accovf :
    (after .cmp { ready with dp := { ready.dp with sadr := 0, thr := 1, wacc := 1023 } }).flt.cause = 8 := by
  decide +kernel

theorem test_ssadd :
    (after .ssadd { ready with dp := { ready.dp with sadr := 73, ssum := 100 } }).dp.ssum = 173 := by
  decide +kernel

/-- R134: identical frames. -/
theorem test_bsad :
    (after (.bsad .next) { onQ with dp := { onQ.dp with devn := 5 } }).dp.devn = 0 := by decide +kernel

/-- A8. -/
theorem test_devl : (after .devl onQ).dp.dev = 87 := by decide +kernel

theorem test_dmin :
    (after .dmin { ready with dp := { ready.dp with dev := 87, devp := 32, devn := 160 } }).dp.dev = 32 := by
  decide +kernel

/-- A9, and the row of table T with `TMAX` = 0. -/
theorem test_thresh :
    (after .thresh { ready with dp := { ready.dp with dev := 87 } }).dp.thr = 95 ∧
    (after .thresh { ready with
      cfg := { cfg8 with lambda := 1024, tmax := 0 }, dp := { ready.dp with dev := 10 } }).dp.thr = 1 := by
  decide +kernel

theorem test_clra : (after .clra onDst200).dp.acc = Quad.fill (Quad.fill 0) := by decide +kernel

/-- C5. -/
theorem test_accrow :
    (after (.accrow .src .s 1 0 2) { onQ with dp := { onQ.dp with mask := true } }).dp.acc.q2 =
      ⟨107, 110, 102, 105⟩ := by decide +kernel

/-- The example of R153. -/
theorem test_accblk :
    (after (.accblk .src .s 0 0) { onQ with dp := { onQ.dp with mask := true } }).dp.acc = blockQ := by
  decide +kernel

/-- C4, lane [0][0]. -/
theorem test_store :
    (after .store { ready with dp := { ready.dp with acc := Quad.fill (Quad.fill 323), wacc := 3 } }).byteAt
      0x1012 = 108 := by decide +kernel

/-- D1, the first and the last sample. -/
theorem test_blend :
    (after .blend { onDst200 with dp := { onDst200.dp with ww := 0x40004000 } }).byteAt 0x1012 = 153 ∧
    (after .blend { onDst200 with dp := { onDst200.dp with ww := 0x40004000 } }).byteAt 0x102D = 154 := by
  decide +kernel

/-- D2. -/
theorem test_diff :
    (after .diff { onDst200 with dp := { onDst200.dp with ww := 0x60002000 } }).dp.resid.toNat = 73977 := by
  decide +kernel

/-- D2 with `DIFF_PACK`. -/
theorem test_diff_pack :
    (after .diff { onDst200 with
      dp := { onDst200.dp with ww := 0x60002000 }
      plat := { onDst200.plat with diffPack := true } }).dp.resid.toNat = 1257 := by decide +kernel

theorem test_pack : (after (.pack 8) ready).dp.ww = 0x71C70E39 := by decide +kernel

/-- The hand calculation of R181: 25 candidates of value 7. -/
theorem test_filt :
    (after (.filt 2) uniform).dp.wacc = 25 ∧ (after (.filt 2) uniform).byteAt 0x102D = 7 := by
  decide +kernel

/-- R182: a uniform neighbourhood stops at stage 1. -/
theorem test_afilt :
    (after (.afilt 3) uniform).dp.wacc = 9 ∧ (after (.afilt 3) uniform).dp.ssum = 0 := by decide +kernel

/-- R184 on a uniform source and the existing bytes of `onDst200`, with the weight word of PACK 1:
`et` = 3200, `at` = 112, output 104, residual 16 * 3096. -/
theorem test_dfilt :
    (after .dfilt { uniform with
      mem := cells 0 [7, 7, 7, 7, 7, 7, 7, 7] ++ onDst200.mem
      dp := { uniform.dp with ww := 0x40004000 } }).dp.resid.toNat = 49536 := by decide +kernel

/-- The example of R203, and that of R204. -/
theorem test_agstart :
    (after (.agstart .p1 0) { ready with cfg := { cfg8 with width := 10 } }).ag =
      { AgRegs.reset with searchX := 2, searchY := 2 } := by decide +kernel

theorem test_agnext :
    (after .agnext { ready with
      cfg := { cfg8 with width := 10 }
      ag := { AgRegs.reset with tx := 12 } }).ag =
      { AgRegs.reset with ty := 4, searchX := 2, searchY := 2, baseY := 4 } := by decide +kernel

/-- The examples of R205 and of 95_test_vectors.md section 7. -/
theorem test_agclamp :
    (after (.agclamp .p2b 8) { ready with
      cfg := { cfg8 with width := 12, height := 12 }
      ag := { AgRegs.reset with tx := 7, ty := 7 } }).ag =
      { AgRegs.reset with
        tx := 7, ty := 7, searchX := 6, searchY := 6, baseX := 7, baseY := 7, agg := .p2b, agk := 8 } := by
  decide +kernel

/-- X5b. -/
theorem test_tile1_cfg : (after .tile1 State.reset).flt = ⟨true, 2, 0x58000000⟩ := by decide +kernel

/-- X5c. -/
theorem test_pass2a_cfg :
    (after .pass2a { ready with cfg := { cfg8 with wmapBase := 0x250 } }).flt.cause = 2 := by decide +kernel

/-- R217 on a plane without interior tiles: only the threshold is set. -/
theorem test_pass2a_no_tile :
    (after .pass2a { ready with cfg := { cfg8 with width := 6, height := 6 } }).dp.thr = 96 := by
  decide +kernel

/-- X5d. -/
theorem test_pass1_cfg :
    (after .pass1 { ready with cfg := { cfg8 with srcStride := 7 } }).flt = ⟨true, 2, 0x5C000000⟩ := by
  decide +kernel

/-- R215 with `TP1` = 256: every tile of every sweep is skipped, and the walk ends at k = 8. -/
theorem test_pass2b_skips :
    (after .pass2b { ready with
      cfg := { cfg8 with tp1 := 256 }, mem := cells 0x2000 [255] }).ag.agk = 8 := by decide +kernel

/-- X5. -/
theorem test_runplane_cfg :
    (after .runplane { ready with cfg := { cfg8 with modeR1 := 3 } }).flt = ⟨true, 2, 0x5F000000⟩ := by
  decide +kernel

/-- X7: the offset is recorded, and the read returns 0. -/
theorem test_badreg :
    ((hostRead 0x0A4 State.reset).flt, (hostRead 0x0A4 State.reset).reply) =
      (⟨true, 9, 0x0A4⟩, some 0) := by decide +kernel

theorem test_withFetchWord :
    (match step (State.reset.withFetchWord 32 0x33000003) with
      | .next t => t.dp.ww
      | _ => 0) = 0x60002000 := by decide +kernel

/-! ## The hypotheses of each statement are met -/

/-- The block of `uniform`. -/
def block7 : Block Byte := Quad.fill (Quad.fill 7)

/-- `ready` is ready for launch. -/
theorem ready_launch : LaunchReady ready :=
  ⟨rfl, by decide +kernel, by decide +kernel, by decide +kernel, rfl⟩

/-- `ready` with the anchors and the latch of a tile at a corner of P1. -/
def corner : State := { ready with ag := { ag22 with tx := 4, ty := 0, baseX := 4, baseY := 0 } }

theorem corner_launch : LaunchReady corner :=
  ⟨rfl, by decide +kernel, by decide +kernel, by decide +kernel, rfl⟩

/-- `ready` in temporal mode. -/
def temporal : State := { ready with cfg := { cfg8 with modeP := 2 } }

theorem temporal_launch : LaunchReady temporal :=
  ⟨rfl, by decide +kernel, by decide +kernel, by decide +kernel, rfl⟩

/-- `ready` with all mode bits but the temporal one, and a weight map with bytes 0, 255, 255, 255. -/
def overlapping : State :=
  { ready with
    cfg := { cfg8 with modeP := 5, tp1 := 255 }
    mem := cells 0x2000 [0, 255] ++ cells 0x2020 [255, 255] }

theorem overlapping_launch : LaunchReady overlapping :=
  ⟨rfl, by decide +kernel, by decide +kernel, by decide +kernel, rfl⟩

/-- `ready` with a fault recorded. -/
def faulted : State := { ready with flt := ⟨true, 3, 0x10000000⟩ }

/-- `ready` about to execute a command word. -/
def issuing (w : Word) : State := { ready with port := [commandAction w] }

/-- `s` about to serve an action. -/
def serving (s : State) (a : HostAction) : State := { s with port := [a] }

/-- `uniform` with a base block of which only part lies in the plane. -/
def straddling : State := { uniform with ag := { ag22 with baseX := 5, baseY := 7 } }

theorem test_hyps_DecodeEncodeAgree :
    (Instr.sad .dst .b .next .s (-3) 3).wf = true ∧ (Instr.agstart .p2b 8).wf = true ∧
    decode 0x10F34C00 = .ok (.sad .dst .b .next .s (-3) 3) ∧ decode 0x50000208 = .ok (.agstart .p2b 8) := by
  decide

/-- Both ends of each reserved range. -/
theorem test_hyps_ReservedOpcodesAreIllegal :
    ∀ op ∈ [0x02, 0x0F, 0x17, 0x1F, 0x23, 0x2F, 0x34, 0x3F, 0x44, 0x4F, 0x53, 0x57, 0x5B, 0x60, 0xFF],
      (issuing (BitVec.ofNat 32 (op * 2 ^ 24))).port =
        commandAction (BitVec.ofNat 32 (op * 2 ^ 24)) :: [] ∧
      Running (issuing (BitVec.ofNat 32 (op * 2 ^ 24))) ∧
      reservedOp ((BitVec.ofNat 32 (op * 2 ^ 24)).toNat / 2 ^ 24) = true := by decide +kernel

/-- Words on both sides of each test: offsets 3 and 4, 13 and 12, `k` 8 and 9, radius 2 and 1. -/
theorem test_hyps_LegalWordsAreCommands :
    (wordLegal 0x1000C000 = true ∧ wordLegal 0x10034000 = true ∧ wordLegal 0x50000208 = true ∧
      wordLegal 0x42000200 = true ∧ wordLegal 0x33000001 = true ∧ wordLegal 0x13100000 = true) ∧
    (wordLegal 0x10010000 = false ∧ wordLegal 0x10030000 = false ∧ wordLegal 0x50000209 = false ∧
      wordLegal 0x42000100 = false ∧ wordLegal 0x33000000 = false ∧ wordLegal 0x13180000 = false ∧
      wordLegal 0x00000001 = false ∧ wordLegal 0x5B000000 = false) ∧
    (issuing 0x10010000).port = commandAction 0x10010000 :: [] ∧ Running (issuing 0x10010000) :=
  ⟨by decide +kernel, by decide +kernel, rfl, rfl⟩

theorem test_hyps_StepRunsTheCommand :
    (issuing 0x33000003).port = commandAction 0x33000003 :: [] ∧ Running (issuing 0x33000003) ∧
    decode 0x33000003 = .ok (.pack 3) := by decide +kernel

/-- The last undefined offset below the table, `CTRL`, a read-only register, a faulted unit. -/
theorem test_hyps_PortSemantics :
    (serving ready (.write 0xFFC 1)).port = .write 0xFFC 1 :: [] ∧ regAt 0xFFC = none ∧ Running ready ∧
    regAt 0x1FFD = none ∧ regAt 0x2000 = none ∧ faulted.flt.fault = true ∧
    regAt 0x00C = some .ctrl ∧ regAt 0x090 = some .sadr ∧ regAccess .sadr = .ro ∧
    regAt 0x1FFC = some (.recipw 1023) ∧ regAccess (.recipw 1023) = .ro ∧
    (serving ready (.read 0x1FFC)).port = .read 0x1FFC :: [] := by decide +kernel

theorem test_hyps_RegistersDoNotAlias :
    (serving ready (.write 0x058 0xFFFFFFFF)).port = .write 0x058 0xFFFFFFFF :: [] ∧
    Running (serving ready (.write 0x058 0xFFFFFFFF)) ∧ regAt 0x058 = some .mode ∧
    regAccess .mode = .rw ∧ regAt 0x020 = some .srcBase ∧ regAccess .srcBase = .rw ∧
    regAt 0x09C = some .ww ∧ regAccess .ww = .rw := by decide +kernel

theorem test_hyps_FaultedUnitIsFrozen :
    faulted.flt.fault = true ∧
    (serving faulted (.write 0x004 0x01000000)).port = .write 0x004 0x01000000 :: [] ∧
    (serving faulted (.write 0x00C 2)).port = .write 0x00C 2 :: [] ∧ (2 : Word).getLsbD 0 = false ∧
    (serving faulted (.read 0x0A4)).port = .read 0x0A4 :: [] := by decide +kernel

theorem test_hyps_FaultedUnitIsFrozen_step : ∃ t, step (serving faulted (.write 0x00C 1)) = .next t :=
  ⟨_, rfl⟩

theorem test_hyps_ResetValues :
    (3 : Word).getLsbD 0 = true ∧ (serving faulted .powerOn).port = .powerOn :: [] ∧
    (serving faulted (.write 0x00C 3)).port = .write 0x00C 3 :: [] := by decide +kernel

theorem test_hyps_FaultEntryWritesOnlyTheRecord : Running ready ∧ faulted.flt.fault = true := by
  decide +kernel

/-- `STORE`, which writes memory. -/
theorem test_hyps_MemoryFormKept :
    MemCanonical (issuing 0x30000000) ∧ ∃ t, step (issuing 0x30000000) = .next t :=
  ⟨by decide +kernel, step_total _⟩

theorem test_hyps_RegistersStayLegal :
    RegistersLegal (issuing 0x11000000) ∧ ∃ t, step (issuing 0x11000000) = .next t := by
  refine ⟨⟨⟨by decide +kernel, by decide +kernel⟩, ⟨?_, ?_⟩, ?_, by decide +kernel, by decide +kernel,
    by decide +kernel⟩, step_total _⟩
  · intro h
    exact absurd h (by decide +kernel)
  · intro _
    decide +kernel
  · unfold LatchLegal
    decide +kernel

theorem test_hyps_OperationsWriteOnlyTheirRegisters :
    exec .thresh { ready with dp := { ready.dp with thr := 7 } } =
      .next (after .thresh { ready with dp := { ready.dp with thr := 7 } }) ∧
    regValue (after .thresh { ready with dp := { ready.dp with thr := 7 } }) .thr ≠
      regValue { ready with dp := { ready.dp with thr := 7 } } .thr :=
  ⟨rfl, by decide +kernel⟩

/-- `STORE` writes the destination and not the weight map: address 0 lies outside the destination. -/
theorem test_hyps_OperationsWriteOnlyTheirPlanes :
    (∃ t, exec .store ready = .next t) ∧ writesDst .store = true ∧ OutsideDst ready.cfg 0 ∧
    writesWmap .store ready.cfg = false ∧ writesWmap .tile2a ready.cfg = true ∧
    OutsideWmap ready.cfg 0 := by
  exact ⟨exec_total _ _, rfl, by decide +kernel, rfl, rfl, by decide +kernel⟩

/-- `STORE` may touch the destination only, so that a byte listed at address 0 makes no difference. -/
theorem test_hyps_OperationsReadOnlyTheirPlanes :
    (∃ t, exec .store ready = .next t) ∧
    ∀ a, MayTouch .store ready.cfg a → (ready.setMem (cells 0 [1])).byteAt a = ready.byteAt a := by
  refine ⟨exec_total _ _, ?_⟩
  rintro a (⟨p, hp, x, -, y, -, rfl⟩ | ⟨h, -⟩)
  · have hd : p = .dst := by cases p <;> first | rfl | exact absurd hp (by decide)
    subst hd
    have h : 0x1000 ≤ linearAddr ready.cfg .dst x y := by
      have : (planeBase ready.cfg .dst).toNat = 0x1000 := by decide +kernel
      simp only [linearAddr, this]
      omega
    have h0 : ¬ 0 = linearAddr ready.cfg .dst x y := by omega
    have hm : (ready.setMem (cells 0 [1])).mem = [(0, 1)] := by decide +kernel
    have hr : ready.mem = [] := rfl
    simp only [State.byteAt, hm, hr, memFind, if_neg h0]
  · exact absurd h (by simp [touchesWmap])

theorem test_hyps_OperationsRaiseOnlyTheirCauses :
    Instr.tile1.wf = true ∧ Running State.reset ∧
    exec .tile1 State.reset = .next (after .tile1 State.reset) ∧
    (after .tile1 State.reset).flt.fault = true :=
  ⟨rfl, rfl, rfl, by decide +kernel⟩

/-- The first, a middle and the last sample of a block that cannot be accessed. -/
theorem test_hyps_SampleAndBlockReads :
    px ready .src (-1) 0 = .error .oob ∧
    px { ready with cfg := { cfg8 with srcBase := 0xFFFFFFFF } } .src 1 0 = .error .aovf ∧
    px { ready with plat := { ready.plat with memDom := [] } } .src 0 0 = .error .bus ∧
    px uniform .src 7 7 = .ok 7 ∧ blk uniform .src 4 4 = .ok block7 ∧
    lanes = [] ++ (0, 0) :: lanes.tail ∧ px uniform .src 8 4 = .error .oob ∧
    lanes = lanes.take 15 ++ (3, 3) :: [] ∧
    (∀ k ∈ lanes.take 12, ∃ v ∈ [(7 : Byte)], px uniform .src (4 + k.2.val) (5 + k.1.val) = .ok v) ∧
    lanes = lanes.take 12 ++ (3, 0) :: lanes.drop 13 ∧
    px uniform .src (4 + (0 : Fin 4).val) (5 + (3 : Fin 4).val) = .error .oob := by decide +kernel

/-- Both blocks readable; the reference not; the candidate not. -/
theorem test_hyps_SadComputesTheDistance :
    candBlk uniform .src .b 0 0 = .ok block7 ∧ candBlk uniform .src .s (-2) 2 = .ok block7 ∧
    candBlk straddling .src .b 0 0 = .error .oob ∧ candBlk uniform .src .s 3 0 = .error .oob := by
  decide +kernel

/-- At, below and above each bound. -/
theorem test_hyps_CmpComparesAndCounts :
    let s := { ready with dp := { ready.dp with sadr := 95, thr := 95 } }
    let t := { ready with dp := { ready.dp with sadr := 94, thr := 95, wacc := 1022 } }
    let u := { ready with dp := { ready.dp with sadr := 94, thr := 95, wacc := 1023 } }
    s.dp.thr.toNat ≤ s.dp.sadr.toNat ∧
    (t.dp.sadr.toNat < t.dp.thr.toNat ∧ t.dp.wacc.toNat < 1023) ∧
    u.dp.sadr.toNat < u.dp.thr.toNat ∧ u.dp.wacc.toNat = 1023 := by decide +kernel

theorem test_hyps_SsaddAddsTheSad :
    let s := { ready with dp := { ready.dp with ssum := 0xFFFFFFFE, sadr := 1 } }
    let t := { ready with dp := { ready.dp with ssum := 0xFFFFFFFF, sadr := 1 } }
    s.dp.ssum.toNat + s.dp.sadr.toNat ≤ 0xFFFFFFFF ∧ 0xFFFFFFFF < t.dp.ssum.toNat + t.dp.sadr.toNat := by
  decide +kernel

theorem test_hyps_BsadComparesFrames :
    candBlk uniform .src .s 0 0 = .ok block7 ∧ candBlk uniform .prev .s 0 0 = .ok block7 ∧
    candBlk uniform .next .s 0 0 = .ok block7 ∧
    candBlk { uniform with ag := { ag22 with searchX := 5 } } .src .s 0 0 = .error .oob ∧
    candBlk { uniform with cfg := { uniform.cfg with prevBase := 0xFFFFFFFF } } .src .s 0 0 = .ok block7 ∧
    candBlk { uniform with cfg := { uniform.cfg with prevBase := 0xFFFFFFFF } } .prev .s 0 0 =
      .error .aovf := by decide +kernel

/-- All four readable; the first, and only the last, not readable. -/
theorem test_hyps_DevlTakesTheSmallerPair :
    let g := ready.plat.devGeom
    [g.a1, g.b1, g.a2, g.b2].map (fun o => candBlk uniform .src .s o.1 o.2) =
      List.replicate 4 (.ok block7) ∧
    candBlk { uniform with ag := { ag22 with searchY := 0 } } .src .s g.a1.1 g.a1.2 = .error .oob ∧
    [g.a1, g.b1, g.a2, g.b2] = [] ++ g.a1 :: [g.b1, g.a2, g.b2] ∧
    (∀ q ∈ [g.a1, g.b1, g.a2],
      candBlk { uniform with ag := { ag22 with searchY := 4 } } .src .s q.1 q.2 = .ok block7) ∧
    candBlk { uniform with ag := { ag22 with searchY := 4 } } .src .s g.b2.1 g.b2.2 = .error .oob ∧
    [g.a1, g.b1, g.a2, g.b2] = [g.a1, g.b1, g.a2] ++ g.b2 :: [] := by decide +kernel

theorem test_hyps_SelfCandidatePasses :
    candBlk uniform .src .s 0 0 = .ok block7 ∧ 1 ≤ uniform.dp.thr.toNat ∧ uniform.dp.wacc.toNat < 1023 := by
  decide +kernel

/-- The mask clear; the mask set with the lanes just full enough, just too full, and an unreadable row. -/
theorem test_hyps_AccrowAddsARow :
    let s := { uniform with dp := { uniform.dp with mask := true, acc := Quad.fill (Quad.fill 32760) } }
    let t := { uniform with dp := { uniform.dp with mask := true, acc := Quad.fill (Quad.fill 32761) } }
    let at' := fun (u : State) (dx : Int) =>
      pxRow u .src ((anchorPos u .s).1 + dx) ((anchorPos u .s).2 + 0 + (3 : Fin 4).val)
    uniform.dp.mask = false ∧ s.dp.mask = true ∧ t.dp.mask = true ∧
    at' s 2 = .ok (Quad.fill 7) ∧ at' t 2 = .ok (Quad.fill 7) ∧ at' s 3 = .error .oob ∧
    (∀ c, ((s.dp.acc.get 3).get c).toNat + ((Quad.fill (7 : Byte)).get c).toNat ≤ 32767) ∧
    32767 < ((t.dp.acc.get 3).get 0).toNat + ((Quad.fill (7 : Byte)).get 0).toNat := by decide +kernel

theorem test_hyps_AccblkAddsABlock :
    let s := { uniform with dp := { uniform.dp with mask := true, acc := Quad.fill (Quad.fill 32760) } }
    let t := { uniform with dp := { uniform.dp with mask := true, acc := Quad.fill (Quad.fill 32761) } }
    uniform.dp.mask = false ∧ s.dp.mask = true ∧ t.dp.mask = true ∧
    candBlk s .src .s 2 2 = .ok block7 ∧ candBlk t .src .s 2 2 = .ok block7 ∧
    candBlk s .src .s 3 0 = .error .oob ∧
    (∀ r c, ((s.dp.acc.get r).get c).toNat + ((block7.get r).get c).toNat ≤ 32767) ∧
    32767 < ((t.dp.acc.get 3).get 3).toNat + ((block7.get 3).get 3).toNat := by decide +kernel

theorem test_hyps_FourRowsMakeABlock :
    let s := { uniform with dp := { uniform.dp with mask := true } }
    exec (.accblk .src .s 2 2) s = .next (after (.accblk .src .s 2 2) s) ∧
    Running (after (.accblk .src .s 2 2) s) :=
  ⟨rfl, by decide +kernel⟩

/-- The smallest and the largest count. -/
theorem test_hyps_StoreWritesTheMean :
    ready.tab.rvalid = true ∧ ready.dp.wacc ≠ 0 ∧ baseMapped ready = true ∧
    4 ≤ ready.cfg.dstStride.toNat ∧ OutsideBase ready 0 ∧
    ({ ready with dp := { ready.dp with wacc := 1023 } } : State).dp.wacc ≠ 0 := by decide +kernel

theorem test_hyps_BlendMixesTheBlocks :
    onDst200.tab.rvalid = true ∧ onDst200.dp.wacc ≠ 0 ∧ baseMapped onDst200 = true ∧
    4 ≤ onDst200.cfg.dstStride.toNat ∧ OutsideBase onDst200 0x1011 := by decide +kernel

theorem test_hyps_DiffBlendsAndMeasures :
    onDst200.tab.rvalid = true ∧ onDst200.dp.wacc ≠ 0 ∧ baseMapped onDst200 = true ∧
    4 ≤ onDst200.cfg.dstStride.toNat ∧ OutsideBase onDst200 0x102E := by decide +kernel

theorem test_hyps_WriteBackNeedsTableAndCount :
    State.reset.tab.rvalid = false ∧ ready.tab.rvalid = true ∧
    ({ ready with dp := { ready.dp with wacc := 0 } } : State).dp.wacc = 0 := by decide +kernel

/-- The fourth sample of the first row, the first of the second row, and the very first. -/
theorem test_hyps_FaultInTheMiddleOfAStore :
    let s := { ready with ag := { ag22 with baseX := 5 } }
    let t := { ready with ag := { ag22 with baseX := 4, baseY := 7 } }
    let u := { ready with ag := { ag22 with baseX := 8 } }
    ready.tab.rvalid = true ∧ ready.dp.wacc ≠ 0 ∧
    lanes = lanes.take 3 ++ (0, 3) :: lanes.drop 4 ∧
    (∀ k ∈ lanes.take 3, sampleOk s .dst (baseLane s k.1 k.2).1 (baseLane s k.1 k.2).2 = true) ∧
    px s .dst (baseLane s 0 3).1 (baseLane s 0 3).2 = .error .oob ∧
    lanes = lanes.take 4 ++ (1, 0) :: lanes.drop 5 ∧
    (∀ k ∈ lanes.take 4, sampleOk t .dst (baseLane t k.1 k.2).1 (baseLane t k.1 k.2).2 = true) ∧
    px t .dst (baseLane t 1 0).1 (baseLane t 1 0).2 = .error .oob ∧
    lanes = [] ++ (0, 0) :: lanes.drop 1 ∧ px u .dst (baseLane u 0 0).1 (baseLane u 0 0).2 = .error .oob := by
  decide +kernel

theorem test_hyps_PackBuildsTheWeightWord : 1 ≤ 1 ∧ 1 ≤ 255 ∧ 1 ≤ 255 ∧ 255 ≤ 255 := by decide

theorem test_hyps_UniformInputIsExact : (1 ≤ 1 ∧ 1 ≤ 49) ∧ (1 ≤ 49 ∧ 49 ≤ 49) ∧ 1 ≤ 255 ∧ 255 ≤ 255 := by
  decide

theorem test_hyps_FiltFiltersTheBlock :
    (scanReadable uniform .src .b (square 0) = true ∧ 0 < passCount uniform .src .b (square 0)) ∧
    (scanReadable uniform .src .s (square 2) = true ∧ 0 < passCount uniform .src .s (square 2)) ∧
    uniform.tab.rvalid = true ∧ baseMapped uniform = true := by decide +kernel

/-- Radius 3 needs a plane of at least 10 by 10. -/
theorem test_hyps_FiltFiltersTheBlock_3 :
    let s := { uniform with
      cfg := { uniform.cfg with width := 10, height := 10 }
      ag := { ag22 with searchX := 3, searchY := 3 }, mem := cells 0 [7, 7, 7, 7, 7, 7, 7, 7, 7, 7] }
    scanReadable s .src .s (square 3) = true ∧ 0 < passCount s .src .s (square 3) ∧
    s.tab.rvalid = true ∧ baseMapped s = true := by decide +kernel

/-- A source that stops at stage 1, and one that widens to stage 2. -/
theorem test_hyps_AfiltWidensOnDemand :
    let s := { uniform with mem := cells 0 [7, 7, 7, 7, 90, 7, 7, 7] }
    (afiltOffsets uniform 3 = ring 0 ++ ring 1 ∧
      scanReadable uniform .src .s (afiltOffsets uniform 3) = true ∧
      0 < passCount uniform .src .s (afiltOffsets uniform 3)) ∧
    (afiltOffsets s 2 = ring 0 ++ ring 1 ++ ring 2 ∧
      scanReadable s .src .s (afiltOffsets s 2) = true ∧ 0 < passCount s .src .s (afiltOffsets s 2)) ∧
    s.tab.rvalid = true ∧ baseMapped s = true := by decide +kernel

theorem test_hyps_OfiltBlendsTheBlock :
    ∀ cp ∈ [Plane.src, .prev, .next], cp ≠ .dst ∧ scanReadable uniform cp .s (square 2) = true ∧
      0 < passCount uniform cp .s (square 2) ∧ uniform.tab.rvalid = true ∧ baseMapped uniform = true := by
  decide +kernel

theorem test_hyps_DfiltBlendsAndMeasures :
    scanReadable uniform .src .s (square 1) = true ∧ 0 < passCount uniform .src .s (square 1) ∧
    uniform.tab.rvalid = true ∧ baseMapped uniform = true ∧ 4 ≤ uniform.cfg.dstStride.toNat := by
  decide +kernel

/-- Anchors equal, and exactly the radius apart. -/
theorem test_hyps_SelfCandidateGuaranteesWeight :
    let s := { uniform with ag := { ag22 with baseX := 4, baseY := 0 } }
    1 ≤ uniform.dp.thr.toNat ∧ candBlk uniform .src .b 0 0 = .ok block7 ∧
    uniform.ag.baseX = uniform.ag.searchX ∧ uniform.ag.baseY = uniform.ag.searchY ∧
    candBlk s .src .b 0 0 = .ok block7 ∧
    ((s.ag.baseX.toNat : Int) - s.ag.searchX.toNat).natAbs ≤ 2 ∧
    ((s.ag.baseY.toNat : Int) - s.ag.searchY.toNat).natAbs ≤ 2 := by decide +kernel

/-- Geometries that fit with and without a first tile, and one that does not fit, by one sample. -/
theorem test_hyps_AgstartStartsTheWalk :
    walkOk .p1 0 = true ∧ geomOk ready.cfg .p1 0 = true ∧ walkOk .p2b 8 = true ∧
    geomOk ready.cfg .p2b 8 = true ∧
    geomOk { cfg8 with width := 6 } .p2a 0 = true ∧ walkCont .p2a 2 6 = false ∧
    geomOk { cfg8 with width := 5 } .p2a 0 = false ∧ geomOk { cfg8 with width := 7 } .p2b 1 = false ∧
    geomOk { cfg8 with width := 7 } .p1 0 = false := by decide +kernel

/-- The four cases: within a row, at the end of a row, at the last tile, and a plane that no longer fits. -/
theorem test_hyps_AgnextStepsTheWalk :
    ready.ag.agdone = false ∧ geomOk ready.cfg .p2b 4 = true ∧
    (walkCont .p2b (2 + 4) 8 = false ∧ walkCont .p2b (2 + 4) 8 = false) ∧
    (walkCont .p1 (6 + 4) 8 = true ∧ walkCont .p1 (7 + 4) 8 = false) ∧
    geomOk State.reset.cfg .p1 0 = false ∧ State.reset.ag.agdone = false ∧
    ({ ready with ag := { ag22 with agdone := true } } : State).ag.agdone = true := by decide +kernel

theorem test_hyps_AgclampPlacesTheAnchors :
    walkOk .p2b 1 = true ∧ geomOk ready.cfg .p2b 1 = true ∧ geomOk State.reset.cfg .p1 0 = false := by
  decide +kernel

/-- Each geometry, at a corner of its walk. -/
theorem test_hyps_AnchorsStayInBounds :
    (geomOk corner.cfg .p1 0 = true ∧ inWalk corner .p1 0 = true ∧ Clamped corner .p1) ∧
    (geomOk ready.cfg .p2a 0 = true ∧ inWalk ready .p2a 0 = true ∧ Clamped ready .p2a) ∧
    (geomOk ready.cfg .p2b 4 = true ∧ inWalk ready .p2b 4 = true ∧ Clamped ready .p2b) := by
  unfold Clamped
  decide +kernel

/-- A walk with nine tiles, and one with none. -/
theorem test_hyps_WalksVisitTheirTiles :
    Running ready ∧ walkOk .p1 0 = true ∧ geomOk ready.cfg .p1 0 = true ∧
    tilesAcross .p1 0 ready.cfg * tilesDown .p1 0 ready.cfg = 9 ∧
    tilesAcross .p2a 0 { cfg8 with width := 6 } * tilesDown .p2a 0 { cfg8 with width := 6 } = 0 := by
  decide +kernel

/-- A radius too small by one; an exact tile and a clamped one. -/
theorem test_hyps_Tile1SpatialCompletes :
    ({ cfg8 with modeR1 := 1 } : CfgRegs).modeR1.toNat < 2 ∧
    (LaunchReady ready ∧ geomOk ready.cfg .p1 0 = true ∧ Clamped ready .p1 ∧ modeT ready.cfg = false) ∧
    (LaunchReady corner ∧ geomOk corner.cfg .p1 0 = true ∧ Clamped corner .p1 ∧
      modeT corner.cfg = false) :=
  ⟨by decide +kernel, ⟨ready_launch, by decide +kernel, by unfold Clamped; decide +kernel, rfl⟩,
    corner_launch, by decide +kernel, by unfold Clamped; decide +kernel, rfl⟩

theorem test_hyps_Tile1TemporalCompletes :
    LaunchReady temporal ∧ PlaneMapped temporal .prev ∧ PlaneMapped temporal .next ∧
    DstApart temporal .src ∧ DstApart temporal .prev ∧ DstApart temporal .next ∧
    geomOk temporal.cfg .p1 0 = true ∧ Clamped temporal .p1 ∧ modeT temporal.cfg = true ∧
    temporal.ag.searchX = temporal.ag.baseX ∧ temporal.ag.searchY = temporal.ag.baseY :=
  ⟨temporal_launch, by decide +kernel, by decide +kernel, by decide +kernel, by decide +kernel,
    by decide +kernel, by decide +kernel, by unfold Clamped; decide +kernel, rfl, rfl, rfl⟩

theorem test_hyps_Tile2aFillsTheWeightMap :
    wmapOk { cfg8 with wmapBase := 0x2010 } = false ∧
    LaunchReady ready ∧ WmapMapped ready ∧ wmapOk ready.cfg = true ∧ geomOk ready.cfg .p2a 0 = true ∧
    inWalk ready .p2a 0 = true ∧ Clamped ready .p2a ∧ 1 ≤ ready.dp.thr.toNat :=
  ⟨by decide +kernel, ready_launch, by decide +kernel, by decide +kernel, by decide +kernel,
    by decide +kernel, by unfold Clamped; decide +kernel, by decide +kernel⟩

/-- The latch of another walk; an entry just below `TP1`; an entry equal to it. -/
theorem test_hyps_Tile2bRefinesOrSkips :
    let s := { overlapping with mem := cells 0x2000 [254] }
    let t := { overlapping with mem := cells 0x2000 [255] }
    State.reset.ag.agg ≠ .p2b ∧
    (s.ag.agg = .p2b ∧ tileEntry s = .ok 0x2000 ∧ s.inMemDom 0x2000 = true ∧
      (s.byteAt 0x2000).toNat < s.cfg.tp1.toNat) ∧
    (t.ag.agg = .p2b ∧ tileEntry t = .ok 0x2000 ∧ t.inMemDom 0x2000 = true ∧
      t.cfg.tp1.toNat ≤ (t.byteAt 0x2000).toNat ∧ LaunchReady t ∧
      geomOk t.cfg .p2b t.ag.agk.toNat = true ∧ inWalk t .p2b t.ag.agk.toNat = true ∧ Clamped t .p2b ∧
      1 ≤ t.dp.thr.toNat) :=
  ⟨by decide +kernel, by decide +kernel, rfl, by decide +kernel, by decide +kernel, by decide +kernel,
    ⟨rfl, by decide +kernel, by decide +kernel, by decide +kernel, rfl⟩, by decide +kernel,
    by decide +kernel, by unfold Clamped; decide +kernel, by decide +kernel⟩

theorem test_hyps_Pass1Completes :
    planeOk { cfg8 with srcStride := 7 } false = false ∧ geomOk { cfg8 with modeR1 := 3 } .p1 0 = false ∧
    LaunchReady ready ∧ planeOk ready.cfg false = true ∧ geomOk ready.cfg .p1 0 = true ∧
    modeT ready.cfg = false :=
  ⟨by decide +kernel, by decide +kernel, ready_launch, by decide +kernel, by decide +kernel, rfl⟩

/-- `ready` on the smallest plane of sub-pass A. -/
def ready6 : State := { ready with cfg := { cfg8 with width := 6, height := 6 } }

/-- The 8×8 boundary of `PASS2B` and the 6×6 boundary of `PASS2A`. -/
theorem test_hyps_Pass2Completes :
    planeOk { cfg8 with dstStride := 7 } false = false ∧ wmapOk { cfg8 with wmapStride := 33 } = false ∧
    (LaunchReady ready ∧ WmapMapped ready ∧ planeOk ready.cfg false = true ∧ wmapOk ready.cfg = true ∧
      ready.cfg.width.toNat = 8 ∧ ready.cfg.height.toNat = 8) ∧
    (LaunchReady ready6 ∧ WmapMapped ready6 ∧ planeOk ready6.cfg false = true ∧ wmapOk ready6.cfg = true ∧
      ready6.cfg.width.toNat = 6 ∧ ready6.cfg.height.toNat = 6) :=
  ⟨by decide +kernel, by decide +kernel,
    ⟨ready_launch, by decide +kernel, by decide +kernel, by decide +kernel, rfl, rfl⟩,
    ⟨⟨rfl, by decide +kernel, by decide +kernel, by decide +kernel, rfl⟩, by decide +kernel,
      by decide +kernel, by decide +kernel, rfl, rfl⟩⟩

theorem test_hyps_RunplaneRunsItsPasses :
    runplaneOk { cfg8 with modeR1 := 3 } = false ∧ runplaneOk overlapping.cfg = true ∧
    Running overlapping ∧ LaunchReady overlapping ∧ modeT overlapping.cfg = false ∧
    modeAO overlapping.cfg = true ∧ WmapMapped overlapping :=
  ⟨by decide +kernel, by decide +kernel, rfl, overlapping_launch, by decide +kernel, by decide +kernel,
    by decide +kernel⟩

theorem test_hyps_OnlyWzeroStopsAReadyPlane :
    LaunchReady temporal ∧ modeT temporal.cfg = true ∧ PlaneMapped temporal .prev ∧
    PlaneMapped temporal .next ∧ modeAO temporal.cfg = false ∧ runplaneOk temporal.cfg = true ∧
    (∃ t, exec .runplane temporal = .next t) ∧ LaunchReady overlapping ∧ WmapMapped overlapping ∧ runplaneOk overlapping.cfg = true :=
  ⟨temporal_launch, by decide +kernel, by decide +kernel, by decide +kernel, by decide +kernel,
    by decide +kernel, exec_total _ _, overlapping_launch, by decide +kernel, by decide +kernel⟩

/-- The hazard of 70_reset_and_hazards.md R288: the base block holds a 9 that no candidate of the previous
frame has. -/
def hazard : State :=
  { uniform with
    cfg := { uniform.cfg with prevBase := 16 }
    ag := { ag22 with tx := 0, ty := 0, baseX := 0, baseY := 0 }
    mem := cells 0 [9, 0, 0, 0, 0, 0, 0, 0] ++ cells 16 [0, 0, 0, 0, 0, 0, 0, 0] }

theorem test_ofilt_wzero : (after (.ofilt 2 .prev) hazard).flt = ⟨true, 6, 0x42080200⟩ := by
  decide +kernel

/-- The hazard in temporal mode meets every premise of the second clause of `OnlyWzeroStopsAReadyPlane`. -/
theorem test_hyps_hazard :
    let s := { hazard with cfg := { hazard.cfg with modeP := 2 } }
    LaunchReady s ∧ RegistersLegal s ∧ modeT s.cfg = true ∧ PlaneMapped s .prev ∧ PlaneMapped s .next ∧
    DstApart s .src ∧ DstApart s .prev ∧ DstApart s .next ∧ geomOk s.cfg .p1 0 = true ∧ Clamped s .p1 := by
  refine ⟨⟨rfl, by decide +kernel, by decide +kernel, by decide +kernel, rfl⟩,
    ⟨⟨?_, ?_⟩, ⟨?_, ?_⟩, ?_, ?_, ?_, ?_⟩, rfl, by decide +kernel, by decide +kernel, by decide +kernel,
    by decide +kernel, by decide +kernel, by decide +kernel, by unfold Clamped; decide +kernel⟩ <;>
    first | decide +kernel | (unfold LatchLegal; decide +kernel)

/-- The search blocks of the two frames agree, so that `TILE1` would run that filter. -/
theorem test_bsad_hazard : (after (.bsad .prev) hazard).dp.devp = 0 := by decide +kernel

theorem test_hyps_PassesAreTheirTiles :
    Running ready ∧ planeOk ready.cfg (modeT ready.cfg) = true ∧ planeOk ready.cfg false = true ∧
    wmapOk ready.cfg = true := by decide +kernel

theorem test_hyps_Pass1WritesTheWholePlane :
    LaunchReady ready ∧ planeOk ready.cfg false = true ∧ geomOk ready.cfg .p1 0 = true ∧
    modeT ready.cfg = false :=
  ⟨ready_launch, by decide +kernel, by decide +kernel, rfl⟩

/-- `ready` with a source of sixty-four bytes 7. -/
def allSeven : State := { ready with mem := cells 0 (List.replicate 64 7) }

theorem test_hyps_UniformPlaneIsUnchanged :
    LaunchReady allSeven ∧ TableLegal allSeven ∧ planeOk allSeven.cfg false = true ∧
    geomOk allSeven.cfg .p1 0 = true ∧ modeT allSeven.cfg = false ∧
    ∀ x, x < allSeven.cfg.width.toNat → ∀ y, y < allSeven.cfg.height.toNat →
      allSeven.byteAt (linearAddr allSeven.cfg .src x y) = 7 := by
  refine ⟨⟨rfl, by decide +kernel, by decide +kernel, by decide +kernel, rfl⟩, ⟨?_, ?_⟩,
    by decide +kernel, by decide +kernel, by decide +kernel, by decide +kernel⟩
  · intro h
    exact absurd h (by decide +kernel)
  · intro _
    decide +kernel

theorem test_hyps_Pass2KeepsTheEdges :
    (∃ t, exec .pass2b ready = .next t) ∧
    (7 < ready.cfg.width.toNat ∧ 7 + 1 = ready.cfg.width.toNat ∧ 0 < ready.cfg.height.toNat) ∧
    OutsideWmap ready.cfg (linearAddr ready.cfg .dst (7 : Nat) (0 : Nat)) := by
  exact ⟨exec_total _ _, by decide +kernel, by decide +kernel⟩

end Sys2Proof.Tests
end

/-! # Every operation is a sequence of register updates

The register and memory writes of the whole instruction set are the constructors of `Update`. One pass over
the operations (`keeps_opOf`) shows that each of them runs as such updates, and only of registers that
`mayWrite` lists for it. What all updates keep, every operation then keeps. -/

namespace Sys2Proof.Machine

/-- Every lane of an accumulator is at most 32767 (10_state.md R42). -/
def LanesWithin (b : Block Half) : Prop := ∀ r c, ((b.get r).get c).toNat ≤ accMax

/-- One write that an operation makes, of a register that `W` admits or of memory, with the bound that the
rules give the value. The flags `MASK` and `AGDONE` are read through `STATUS` only, which `W` does not speak
of. `wf` says that the operands are those of a well-formed instruction; only the latch depends on it. -/
inductive Update (wf : Prop) (W : Reg → Bool) (s : State) : State → Prop
  | sadr {n : Nat} (hW : W .sadr = true) (hn : n ≤ 4080) :
      Update wf W s (s.setSadr (BitVec.ofNat 12 n))
  | ssum (v : Word) (hW : W .ssum = true) : Update wf W s (s.setSsum v)
  | mask (v : Bool) : Update wf W s (s.setMask v)
  | wacc (v : BitVec 10) (hW : W .wacc = true) : Update wf W s (s.setWacc v)
  | acc {b : Block Half} (hW : ∀ r h, W (.accw r h) = true)
      (hb : LanesWithin s.dp.acc → LanesWithin b) : Update wf W s (s.setAcc b)
  | dev (v : Half) (hW : W .dev = true) : Update wf W s (s.setDev v)
  | devp (v : Half) (hW : W .devp = true) : Update wf W s (s.setDevp v)
  | devn (v : Half) (hW : W .devn = true) : Update wf W s (s.setDevn v)
  | thr (v : Half) (hW : W .thr = true) : Update wf W s (s.setThr v)
  | ww (v : Word) (hW : W .ww = true) : Update wf W s (s.setWw v)
  | resid {n : Nat} (hW : W .resid = true) (hn : n ≤ 134640) :
      Update wf W s (s.setResid (BitVec.ofNat 32 n))
  | table (hW : ∀ n, W (.recipw n) = true) : Update wf W s (s.setTable recipTable)
  | tile (x y : Word) (hx : W .tx = true) (hy : W .ty = true) : Update wf W s (s.setTile x y)
  | anchors (sx sy bx bY : Word) (hsx : W .sx = true) (hsy : W .sy = true) (hbx : W .bx = true)
      (hby : W .bY = true) : Update wf W s (s.setAnchors sx sy bx bY)
  | latch (g : Geometry) (k : Nat) (hW : W .agstate = true) (hk : wf → walkOk g k = true) :
      Update wf W s (s.setLatch g (BitVec.ofNat 4 k))
  | agdone (v : Bool) : Update wf W s (s.setAgdone v)
  | mem {a : Nat} (v : Byte) (ha : a ≤ addrMax) : Update wf W s (s.setMem (memPut s.mem a v))

/-- A sequence of updates. -/
abbrev Updates (wf : Prop) (W : Reg → Bool) : State → State → Prop :=
  Relation.ReflTransGen (Update wf W)

/-- The registers that a candidate scan writes, `CLRA` included. -/
structure AdmitsScan (W : Reg → Bool) : Prop where
  sadr : W .sadr = true
  ssum : W .ssum = true
  wacc : W .wacc = true
  acc : ∀ r h, W (.accw r h) = true

/-- The registers that the placing of the anchors writes. -/
structure AdmitsAnchors (W : Reg → Bool) : Prop where
  sx : W .sx = true
  sy : W .sy = true
  bx : W .bx = true
  bY : W .bY = true

/-- The registers that a move to another tile writes. -/
structure AdmitsMove (W : Reg → Bool) : Prop extends AdmitsAnchors W where
  tx : W .tx = true
  ty : W .ty = true

section
variable {α β : Type} {wf : Prop} {W : Reg → Bool}

theorem updates_frame : Frame (Updates wf W) where
  refl _ := .refl
  trans _ _ _ h h' := h.trans h'

/-! ## Composition -/

/-- A step whose answer says something of the value it hands on. -/
theorem keeps_bind_of_ok {R : State → State → Prop} (hR : Frame R) {x : Op α} {f : α → Op β}
    (hx : Keeps R x) (hf : ∀ a s t, x s = .ok a t → Keeps R (f a)) : Keeps R (x >>= f) := by
  intro s
  have h := hx s
  rw [op_bind]
  split
  · rename_i a t ht
    rw [ht] at h
    exact hR.trans _ _ _ h (hf a s t ht t)
  · rename_i c t ht
    rw [ht] at h
    exact h

/-- A reading step hands on a value that the read answers in some state. -/
theorem keeps_look_bind {R : State → State → Prop} (hR : Frame R) {f : State → Except Cause α}
    {g : α → Op β} (hg : ∀ a s, f s = .ok a → Keeps R (g a)) : Keeps R (look f >>= g) :=
  keeps_bind_of_ok hR (keeps_look hR f) fun a s _ h => hg a s (look_inv h).1

theorem updates_bind {x : Op α} {f : α → Op β} (hx : Keeps (Updates wf W) x)
    (hf : ∀ a, Keeps (Updates wf W) (f a)) : Keeps (Updates wf W) (x >>= f) :=
  keeps_bind updates_frame hx hf

theorem updates_look {f : State → Except Cause α} {g : α → Op β}
    (hg : ∀ a, Keeps (Updates wf W) (g a)) : Keeps (Updates wf W) (look f >>= g) :=
  updates_bind (keeps_look updates_frame f) hg

theorem updates_get {g : State → Op β} (hg : ∀ s, Keeps (Updates wf W) (g s)) :
    Keeps (Updates wf W) (get >>= g) :=
  updates_bind (keeps_get updates_frame) hg

theorem updates_pure (a : α) : Keeps (Updates wf W) (pure a : Op α) := keeps_pure updates_frame a

theorem updates_raise (c : Cause) : Keeps (Updates wf W) (raise c : Op α) := keeps_raise updates_frame c

/-- A single update. -/
theorem keeps_update {f : State → State} (h : ∀ s, Update wf W s (f s)) :
    Keeps (Updates wf W) (modify f : Op PUnit) :=
  keeps_modify fun s => .single (h s)

/-! ## The accumulator -/

theorem lanesWithin_zero : LanesWithin (Quad.fill (Quad.fill 0)) := by
  intro r c
  simp

theorem lanesWithin_blkAdd {a : Block Half} {b : Block Byte} (h : blkFits a b = true) :
    LanesWithin (blkAdd a b) := by
  intro r c
  rw [blkAdd_toNat h]
  exact (blkFits_iff a b).1 h r c

/-- A row that fits keeps the lanes of its row within the bound, and the other rows are not touched. -/
theorem lanesWithin_setRow {a : Block Half} {v : Quad Byte} {row : Fin 4}
    (h : rowFits (a.get row) v = true) (ha : LanesWithin a) :
    LanesWithin (a.set row (rowAdd (a.get row) v)) := by
  intro r c
  rw [Quad.get_set]
  split
  · have hfit : ((a.get row).get c).toNat + (v.get c).toNat ≤ accMax := by
      simpa [laneFits] using (Quad.all_iff id _).1 h c
    simpa [rowAdd, laneAdd_toNat hfit] using hfit
  · exact ha r c

theorem keeps_clraOp (hacc : ∀ r h, W (.accw r h) = true) (hwacc : W .wacc = true)
    (hssum : W .ssum = true) : Keeps (Updates wf W) clraOp :=
  keeps_modify fun s =>
    ((Relation.ReflTransGen.single (.acc (s := s) hacc fun _ => lanesWithin_zero)).tail
      (.wacc 0 hwacc)).tail (.ssum 0 hssum)

theorem keeps_accrowOp (hW : ∀ r h, W (.accw r h) = true) (cp : Plane) (ca : Anchor) (dx dy : Int)
    (row : Fin 4) : Keeps (Updates wf W) (accrowOp cp ca dx dy row) := by
  refine updates_get fun u => ?_
  refine keeps_ite ?_ (updates_pure _)
  refine updates_look fun v => keeps_get_bind fun s => ?_
  split
  · rename_i hfit
    exact .single (.acc hW (lanesWithin_setRow hfit))
  · exact .refl

theorem keeps_accblkOp (hW : ∀ r h, W (.accw r h) = true) (cp : Plane) (ca : Anchor) (dx dy : Int) :
    Keeps (Updates wf W) (accblkOp cp ca dx dy) := by
  refine updates_get fun u => ?_
  refine keeps_ite ?_ (updates_pure _)
  refine updates_look fun b => keeps_get_bind fun s => ?_
  split
  · rename_i hfit
    exact .single (.acc hW fun _ => lanesWithin_blkAdd hfit)
  · exact .refl

/-! ## The SAD unit and the threshold operations -/

theorem keeps_sadOp (hW : W .sadr = true) (rp : Plane) (ra : Anchor) (cp : Plane) (ca : Anchor)
    (dx dy : Int) : Keeps (Updates wf W) (sadOp rp ra cp ca dx dy) :=
  updates_look fun ref =>
    updates_look fun cand =>
      keeps_update fun _ => .sadr hW (sad4x4_le ref cand)

theorem keeps_cmpOp (hW : W .wacc = true) : Keeps (Updates wf W) cmpOp := by
  refine keeps_get_bind fun s => ?_
  split
  · split
    · exact .refl
    · exact (Relation.ReflTransGen.single (.mask true)).tail (.wacc _ hW)
  · exact .single (.mask false)

theorem keeps_ssaddOp (hW : W .ssum = true) : Keeps (Updates wf W) ssaddOp := by
  refine keeps_get_bind fun s => ?_
  split
  · exact .refl
  · exact .single (.ssum _ hW)

theorem keeps_bsadOp {cp : Plane} (hn : cp = .next → W .devn = true) (hp : cp ≠ .next → W .devp = true) :
    Keeps (Updates wf W) (bsadOp cp) := by
  refine updates_look fun a =>
    updates_look fun b => keeps_update fun s => ?_
  split
  · rename_i h
    exact .devn _ (hn h)
  · rename_i h
    exact .devp _ (hp h)

theorem keeps_devlOp (hW : W .dev = true) : Keeps (Updates wf W) devlOp :=
  updates_get fun _ => updates_look fun _ => updates_look fun _ => updates_look fun _ =>
    updates_look fun _ => keeps_update fun _ => .dev _ hW

theorem keeps_dminOp (hW : W .dev = true) : Keeps (Updates wf W) dminOp :=
  keeps_update fun _ => .dev _ hW

theorem keeps_threshOp (hW : W .thr = true) : Keeps (Updates wf W) threshOp :=
  keeps_update fun _ => .thr _ hW

/-! ## The write-back -/

theorem keeps_memWrite {a : Nat} (ha : a ≤ addrMax) (v : Byte) :
    Keeps (Updates wf W) (memWrite a v) := by
  intro s
  unfold memWrite
  split
  · exact .single (.mem v ha)
  · exact .refl

theorem keeps_wrpx (x y : Int) (v : Byte) : Keeps (Updates wf W) (wrpx x y v) :=
  keeps_look_bind updates_frame fun _ s h => by
    obtain ⟨-, ha, rfl⟩ := (sampleAddr_ok_iff s.cfg .dst x y _).1 h
    exact keeps_memWrite ha v

theorem keeps_storeLane (q : Nat) (r c : Fin 4) : Keeps (Updates wf W) (storeLane q r c) :=
  updates_get fun _ => updates_bind (keeps_wrpx _ _ _) fun _ => updates_pure _

theorem keeps_blendLane (q : Nat) (r c : Fin 4) : Keeps (Updates wf W) (blendLane q r c) :=
  updates_get fun _ => updates_look fun _ =>
    updates_bind (keeps_wrpx _ _ _) fun _ => updates_pure _

theorem keeps_storeOp : Keeps (Updates wf W) storeOp :=
  updates_look fun q =>
    updates_bind (keeps_eachLane updates_frame (keeps_storeLane q) lanes) fun _ => updates_pure _

theorem keeps_blendOp : Keeps (Updates wf W) blendOp :=
  updates_look fun q =>
    updates_bind (keeps_eachLane updates_frame (keeps_blendLane q) lanes) fun _ => updates_pure _

theorem keeps_packOp (hW : W .ww = true) (alpha : Nat) : Keeps (Updates wf W) (packOp alpha) :=
  keeps_update fun _ => .ww _ hW

/-! ### The residual (10_state.md R45) -/

/-- The scaled existing byte lies between `-32768 * 255 / 1024` and `32767 * 255 / 1024`. -/
theorem blendExisting_bounds (e : Byte) (ww : Word) :
    -8160 ≤ blendExisting e (wwHi ww) ∧ blendExisting e (wwHi ww) ≤ 8159 := by
  have he : (e.toNat : Int) ≤ 255 := by have := e.isLt; omega
  have hlo : (-32768 : Int) ≤ wwHi ww := BitVec.le_toInt _
  have hhi : wwHi ww < 32768 := BitVec.toInt_lt
  have hmin : (e.toNat : Int) * -32768 ≤ e.toNat * wwHi ww :=
    mul_le_mul_of_nonneg_left hlo (Int.natCast_nonneg _)
  have hmax : (e.toNat : Int) * wwHi ww ≤ e.toNat * 32767 :=
    mul_le_mul_of_nonneg_left (by omega) (Int.natCast_nonneg _)
  unfold blendExisting
  omega

/-- One lane adds at most `255 + 8160` to the residual. -/
theorem residTerm_le (diffPack : Bool) (out e : Byte) (ww : Word) :
    residTerm diffPack out e (wwHi ww) ≤ 8415 := by
  unfold residTerm
  split
  · exact (absDiff_le _ _).trans (by omega)
  · have ho := out.isLt
    have he := blendExisting_bounds e ww
    omega

/-- A blended lane answers its residual term. -/
theorem blendLane_value_le {q : Nat} {r c : Fin 4} {s t : State} {n : Nat}
    (h : blendLane q r c s = .ok n t) : n ≤ 8415 := by
  unfold blendLane at h
  rw [op_bind_ok (op_get s), op_bind, op_look] at h
  cases hpx : px s .dst (baseLane s r c).1 (baseLane s r c).2 with
  | error e => simp [hpx] at h
  | ok e =>
    simp only [hpx, op_bind] at h
    split at h
    · cases h
      exact residTerm_le _ _ _ _
    · cases h

/-- What bounds each lane's answer, times the lanes bounds their sum. -/
theorem eachLane_value_le {f : Fin 4 → Fin 4 → Op Nat} {b : Nat}
    (hf : ∀ r c s t n, f r c s = .ok n t → n ≤ b) (ls : List (Fin 4 × Fin 4)) {s t : State} {n : Nat}
    (h : eachLane f ls s = .ok n t) : n ≤ ls.length * b := by
  induction ls generalizing s n with
  | nil => cases h; exact Nat.zero_le _
  | cons l ls ih =>
    cases hl : f l.1 l.2 s with
    | error c u => rw [eachLane_cons_error hl] at h; cases h
    | ok m u =>
      rw [eachLane_cons_ok hl] at h
      cases hr : eachLane f ls u with
      | error c v => rw [hr] at h; cases h
      | ok k v =>
        rw [hr] at h
        cases h
        have hm := hf _ _ _ _ _ hl
        have hk := ih hr
        rw [List.length_cons, Nat.add_mul]
        omega

theorem keeps_diffOp (hW : W .resid = true) : Keeps (Updates wf W) diffOp :=
  updates_look fun q =>
    keeps_bind_of_ok updates_frame (keeps_eachLane updates_frame (keeps_blendLane q) lanes)
      fun _ _ _ h => keeps_update fun _ =>
        .resid hW (eachLane_value_le (fun _ _ _ _ _ => blendLane_value_le) lanes h)

/-! ## Kernels -/

theorem keeps_candOp (h : AdmitsScan W) (cp : Plane) (ca : Anchor) (sum : Bool) (dx dy : Int) :
    Keeps (Updates wf W) (candOp cp ca sum dx dy) := by
  have hrest : Keeps (Updates wf W) (cmpOp >>= fun _ => accblkOp cp ca dx dy) :=
    updates_bind (keeps_cmpOp h.wacc) fun _ => keeps_accblkOp h.acc cp ca dx dy
  refine updates_bind (keeps_sadOp h.sadr _ _ _ _ _ _) fun _ => ?_
  cases sum with
  | false => exact hrest
  | true => exact updates_bind (keeps_ssaddOp h.ssum) fun _ => hrest

theorem keeps_scanOp (h : AdmitsScan W) (cp : Plane) (ca : Anchor) (sum : Bool) (os : List (Int × Int)) :
    Keeps (Updates wf W) (scanOp cp ca sum os) := by
  induction os with
  | nil => exact updates_pure _
  | cons o os ih => exact updates_bind (keeps_candOp h cp ca sum o.1 o.2) fun _ => ih

/-- The shape of a kernel: clear, scan, write back (R181 to R184). -/
theorem keeps_kernel (h : AdmitsScan W) {writeBack : Op Unit} (hwb : Keeps (Updates wf W) writeBack)
    (cp : Plane) (ca : Anchor) (sum : Bool) (os : List (Int × Int)) :
    Keeps (Updates wf W) (clraOp >>= fun _ => scanOp cp ca sum os >>= fun _ => writeBack) :=
  updates_bind (keeps_clraOp h.acc h.wacc h.ssum) fun _ =>
    updates_bind (keeps_scanOp h cp ca sum os) fun _ => hwb

theorem keeps_filtOp (h : AdmitsScan W) (r : Nat) : Keeps (Updates wf W) (filtOp r) :=
  keeps_kernel h keeps_storeOp _ _ _ _

/-- The write-back of `AFILT` follows the wider stages that the running total asks for (R182). -/
theorem keeps_afiltOp (h : AdmitsScan W) (r : Nat) : Keeps (Updates wf W) (afiltOp r) := by
  have hscan := fun d => keeps_scanOp (wf := wf) h .src .s true (ring d)
  refine keeps_kernel h (updates_get fun _ => ?_) _ _ _ _
  split
  · refine updates_bind (hscan 2) fun _ => updates_get fun _ => ?_
    split
    · exact updates_bind (hscan 3) fun _ => keeps_storeOp
    · exact keeps_storeOp
  · exact keeps_storeOp

theorem keeps_ofiltOp (h : AdmitsScan W) (r : Nat) (cp : Plane) : Keeps (Updates wf W) (ofiltOp r cp) :=
  keeps_kernel h keeps_blendOp _ _ _ _

theorem keeps_dfiltOp (h : AdmitsScan W) (hW : W .resid = true) : Keeps (Updates wf W) dfiltOp :=
  keeps_kernel h (keeps_diffOp hW) _ _ _ _

/-! ## The address generator -/

theorem updates_agclamp (h : AdmitsAnchors W) (s : State) (g : Geometry) :
    Updates wf W s (agclamp s g) :=
  .single (.anchors _ _ _ _ h.sx h.sy h.bx h.bY)

theorem updates_place (h : AdmitsMove W) (s : State) (x y : Word) (done : Bool) :
    Updates wf W s ((s.setTile x y).setAgdone done) :=
  (Relation.ReflTransGen.single (.tile x y h.tx h.ty)).tail (.agdone done)

theorem updates_enterTile (h : AdmitsMove W) (s : State) (g : Geometry) (x y : Nat) :
    Updates wf W s (enterTile s g x y) :=
  (updates_place h s _ _ false).trans (updates_agclamp h.toAdmitsAnchors _ g)

theorem keeps_agstartOp (h : AdmitsMove W) (hW : W .agstate = true) {g : Geometry} {k : Nat}
    (hk : wf → walkOk g k = true) : Keeps (Updates wf W) (agstartOp g k) := by
  intro s
  have hlatch : Updates wf W s (s.setLatch g (BitVec.ofNat 4 k)) := .single (.latch g k hW hk)
  cases hg : geomOk s.cfg g k with
  | false => rw [agstartOp_error hg]; exact .refl
  | true =>
    rw [agstartOp_ok hg]
    dsimp only [endState]
    split
    · exact hlatch.trans (updates_enterTile h _ _ _ _)
    · exact hlatch.trans (updates_place h _ _ _ true)

theorem keeps_agnextOp (h : AdmitsMove W) : Keeps (Updates wf W) agnextOp := by
  intro s
  cases hd : s.ag.agdone with
  | true => rw [agnextOp_done hd]; exact .refl
  | false =>
    cases hg : geomOk s.cfg s.ag.agg s.ag.agk.toNat with
    | false => rw [agnextOp_error hd hg]; exact .refl
    | true =>
      rw [agnextOp_ok hd hg]
      dsimp only [endState]
      split
      · exact updates_enterTile h _ _ _ _
      · split
        · exact updates_enterTile h _ _ _ _
        · exact .single (.agdone true)

theorem keeps_agclampOp (h : AdmitsAnchors W) (hW : W .agstate = true) {g : Geometry} {k : Nat}
    (hk : wf → walkOk g k = true) : Keeps (Updates wf W) (agclampOp g k) := by
  intro s
  cases hg : geomOk s.cfg g k with
  | false => rw [agclampOp_error hg]; exact .refl
  | true =>
    rw [agclampOp_ok hg]
    exact (Relation.ReflTransGen.single (.latch g k hW hk)).trans (updates_agclamp h _ g)

/-! ## Tiles -/

theorem keeps_temporalBlend (h : AdmitsScan W) (hW : W .ww = true) (r k : Nat) (cp : Plane) :
    Keeps (Updates wf W) (temporalBlend r k cp) :=
  updates_bind (keeps_packOp hW k) fun _ => keeps_ofiltOp h r cp

theorem keeps_tile1Temporal (h : AdmitsScan W) (hW : W .ww = true) (r : Nat) :
    Keeps (Updates wf W) (tile1Temporal r) := by
  have hblend := keeps_temporalBlend (wf := wf) h hW r
  have hskip : Keeps (Updates wf W) (pure () : Op Unit) := updates_pure ()
  refine updates_bind (keeps_filtOp h 0) fun _ => updates_get fun u => updates_get fun v => ?_
  split
  · exact updates_bind (hblend 1 .prev) fun _ =>
      updates_get fun _ => updates_get fun _ => keeps_ite (hblend 2 .next) hskip
  · exact updates_get fun _ => updates_get fun _ => keeps_ite (hblend 1 .next) hskip

/-- The registers that `TILE1` writes beside those of a scan (45_scan_driver.md R210). -/
structure AdmitsTile1 (W : Reg → Bool) : Prop extends AdmitsScan W where
  dev : W .dev = true
  devp : W .devp = true
  devn : W .devn = true
  thr : W .thr = true
  ww : W .ww = true

theorem keeps_tile1Op (h : AdmitsTile1 W) : Keeps (Updates wf W) tile1Op := by
  have hscan := h.toAdmitsScan
  have hbsad : ∀ cp, Keeps (Updates wf W) (bsadOp cp) :=
    fun _ => keeps_bsadOp (fun _ => h.devn) fun _ => h.devp
  refine updates_get fun _ => keeps_ite (updates_raise _) ?_
  refine updates_bind (keeps_devlOp h.dev) fun _ => keeps_ite ?temporal ?spatial
  case temporal =>
    exact updates_bind (hbsad .prev) fun _ => updates_bind (hbsad .next) fun _ =>
      updates_bind (keeps_dminOp h.dev) fun _ =>
        updates_bind (keeps_threshOp h.thr) fun _ => keeps_tile1Temporal hscan h.ww _
  case spatial =>
    exact updates_bind (keeps_threshOp h.thr) fun _ =>
      keeps_ite (keeps_afiltOp hscan _) (keeps_filtOp hscan _)

/-- The address of a tile's weight-map entry is in the address space (20_memory.md R77). -/
theorem tileEntry_le {s : State} {a : Nat} (h : tileEntry s = .ok a) : a ≤ addrMax := by
  unfold tileEntry wmaddr at h
  split at h
  · split at h
    · cases h
    · split at h
      · cases h
      · rename_i hle
        cases h
        exact Nat.le_of_not_lt hle
  · cases h

theorem keeps_tile2aOp (h : AdmitsScan W) (hww : W .ww = true) (hres : W .resid = true) :
    Keeps (Updates wf W) tile2aOp :=
  keeps_look_bind updates_frame fun _ _ ha => updates_get fun _ =>
    updates_bind (keeps_packOp hww _) fun _ => updates_bind (keeps_dfiltOp h hres) fun _ =>
      updates_get fun _ => keeps_memWrite (tileEntry_le ha) _

theorem keeps_tile2bOp (h : AdmitsScan W) (hww : W .ww = true) : Keeps (Updates wf W) tile2bOp :=
  have hrefine : ∀ k, Keeps (Updates wf W) (packOp k >>= fun _ => ofiltOp 2 .src) :=
    fun k => updates_bind (keeps_packOp hww k) fun _ => keeps_ofiltOp h 2 .src
  updates_get fun _ => keeps_ite
    (updates_look fun _ => updates_look fun _ => keeps_ite (hrefine _) (updates_pure _))
    (updates_raise _)

/-! ## Passes -/

/-- The registers that every pass writes: those of a walk, of a scan, `THR` and `WW`. -/
structure AdmitsPass (W : Reg → Bool) : Prop extends AdmitsMove W, AdmitsScan W where
  agstate : W .agstate = true
  thr : W .thr = true
  ww : W .ww = true

theorem keeps_walk (h : AdmitsPass W) {g : Geometry} {k : Nat} (hk : walkOk g k = true) {tile : Op Unit}
    (ht : Keeps (Updates wf W) tile) : Keeps (Updates wf W) (walkOp g k tile) :=
  keeps_walkOp updates_frame (keeps_agstartOp h.toAdmitsMove h.agstate fun _ => hk) ht
    (keeps_agnextOp h.toAdmitsMove)

theorem keeps_pass1Op (h : AdmitsPass W) (ht : AdmitsTile1 W) : Keeps (Updates wf W) pass1Op :=
  updates_get fun _ => keeps_ite (keeps_walk h rfl (keeps_tile1Op ht)) (updates_raise _)

theorem keeps_pass2Open (hW : W .thr = true) : Keeps (Updates wf W) pass2Open := by
  refine keeps_get_bind fun s => ?_
  split
  · exact .single (.thr _ hW)
  · exact .refl

theorem keeps_pass2aOp (h : AdmitsPass W) (hres : W .resid = true) : Keeps (Updates wf W) pass2aOp :=
  updates_bind (keeps_pass2Open h.thr) fun _ =>
    keeps_walk h rfl (keeps_tile2aOp h.toAdmitsScan h.ww hres)

theorem keeps_sweepsOp (h : AdmitsPass W) {ks : List Nat} (hks : ∀ k ∈ ks, walkOk .p2b k = true) :
    Keeps (Updates wf W) (sweepsOp ks) := by
  induction ks with
  | nil => exact updates_pure _
  | cons k ks ih =>
    obtain ⟨hk, hrest⟩ := List.forall_mem_cons.1 hks
    exact updates_bind (keeps_walk h hk (keeps_tile2bOp h.toAdmitsScan h.ww)) fun _ => ih hrest

theorem keeps_pass2bOp (h : AdmitsPass W) : Keeps (Updates wf W) pass2bOp :=
  updates_bind (keeps_pass2Open h.thr) fun _ => keeps_sweepsOp h (by decide)

theorem keeps_runplaneOp (h : AdmitsPass W) (ht : AdmitsTile1 W) (hres : W .resid = true) :
    Keeps (Updates wf W) runplaneOp :=
  have hpass2 : Keeps (Updates wf W) (pass2aOp >>= fun _ => pass2bOp) :=
    updates_bind (keeps_pass2aOp h hres) fun _ => keeps_pass2bOp h
  updates_get fun _ => keeps_ite
    (updates_bind (keeps_pass1Op h ht) fun _ => keeps_ite hpass2 (updates_pure _))
    (updates_raise _)

end

/-! ## All thirty operations -/

theorem mayWrite_admitsScan {i : Instr} (h : runsKernel i = true) : AdmitsScan (mayWrite i) := by
  constructor <;> simp [mayWrite, h]

theorem mayWrite_admitsPass {i : Instr} (hk : runsKernel i = true) (hw : runsWalk i = true) :
    AdmitsPass (mayWrite i) :=
  { mayWrite_admitsScan hk with
    tx := by simp [mayWrite, hw], ty := by simp [mayWrite, hw], sx := by simp [mayWrite, hw]
    sy := by simp [mayWrite, hw], bx := by simp [mayWrite, hw], bY := by simp [mayWrite, hw]
    agstate := by simp [mayWrite, hw], thr := by simp [mayWrite, hw], ww := by simp [mayWrite, hw] }

/-- Every instruction runs as updates of registers that the register map lists it as writing. -/
theorem keeps_opOf (i : Instr) : Keeps (Updates (i.wf = true) (mayWrite i)) (opOf i) := by
  cases i with
  | nop => exact updates_pure _
  | rbuild => exact keeps_update fun _ => .table fun _ => rfl
  | sad => exact keeps_sadOp rfl _ _ _ _ _ _
  | cmp => exact keeps_cmpOp rfl
  | ssadd => exact keeps_ssaddOp rfl
  | bsad cp => exact keeps_bsadOp (by rintro rfl; rfl) fun h => by simpa [mayWrite] using h
  | devl => exact keeps_devlOp rfl
  | dmin => exact keeps_dminOp rfl
  | thresh => exact keeps_threshOp rfl
  | clra => exact keeps_clraOp (fun _ _ => rfl) rfl rfl
  | accrow => exact keeps_accrowOp (fun _ _ => rfl) _ _ _ _ _
  | accblk => exact keeps_accblkOp (fun _ _ => rfl) _ _ _ _
  | store => exact keeps_storeOp
  | blend => exact keeps_blendOp
  | diff => exact keeps_diffOp rfl
  | pack alpha => exact keeps_packOp rfl alpha
  | filt r => exact keeps_filtOp (mayWrite_admitsScan rfl) r
  | afilt r => exact keeps_afiltOp (mayWrite_admitsScan rfl) r
  | ofilt r cp => exact keeps_ofiltOp (mayWrite_admitsScan rfl) r cp
  | dfilt => exact keeps_dfiltOp (mayWrite_admitsScan rfl) rfl
  | agstart g k => exact keeps_agstartOp ⟨⟨rfl, rfl, rfl, rfl⟩, rfl, rfl⟩ rfl id
  | agnext => exact keeps_agnextOp ⟨⟨rfl, rfl, rfl, rfl⟩, rfl, rfl⟩
  | agclamp g k => exact keeps_agclampOp ⟨rfl, rfl, rfl, rfl⟩ rfl id
  | tile1 => exact keeps_tile1Op ⟨mayWrite_admitsScan rfl, rfl, rfl, rfl, rfl, rfl⟩
  | tile2a => exact keeps_tile2aOp (mayWrite_admitsScan rfl) rfl rfl
  | tile2b => exact keeps_tile2bOp (mayWrite_admitsScan rfl) rfl
  | pass1 =>
    exact keeps_pass1Op (mayWrite_admitsPass rfl rfl) ⟨mayWrite_admitsScan rfl, rfl, rfl, rfl, rfl, rfl⟩
  | pass2a => exact keeps_pass2aOp (mayWrite_admitsPass rfl rfl) rfl
  | pass2b => exact keeps_pass2bOp (mayWrite_admitsPass rfl rfl)
  | runplane =>
    exact keeps_runplaneOp (mayWrite_admitsPass rfl rfl)
      ⟨mayWrite_admitsScan rfl, rfl, rfl, rfl, rfl, rfl⟩ rfl

/-- What an executed instruction reaches: the end of its updates, with or without a fault recorded there. -/
theorem exec_updates {i : Instr} {s t : State} (h : exec i s = .next t) :
    ∃ u, Updates (i.wf = true) (mayWrite i) s u ∧ (t = u ∨ ∃ c, t = takeFault u c (encode i)) := by
  have hrun := keeps_opOf i s
  rw [exec_eq] at h
  rcases command_next h with hop | ⟨c, u, hop, rfl⟩
  · rw [hop] at hrun
    exact ⟨t, hrun, .inl rfl⟩
  · rw [hop] at hrun
    exact ⟨u, hrun, .inr ⟨c, rfl⟩⟩

end Sys2Proof.Machine

/-! # What the registers read as after an update

One rule for each update: every register but the ones it writes reads as before. `STATUS` shows `MASK` and
`AGDONE`. -/

namespace Sys2Proof.Machine

section
variable {s : State} {q : Reg}

theorem regValue_setSadr (v : BitVec 12) (h : q ≠ .sadr) : regValue (s.setSadr v) q = regValue s q := by
  cases q
  case sadr => exact absurd rfl h
  all_goals rfl

theorem regValue_setSsum (v : Word) (h : q ≠ .ssum) : regValue (s.setSsum v) q = regValue s q := by
  cases q
  case ssum => exact absurd rfl h
  all_goals rfl

theorem regValue_setMask (v : Bool) (h : q ≠ .status) : regValue (s.setMask v) q = regValue s q := by
  cases q
  case status => exact absurd rfl h
  all_goals rfl

theorem regValue_setWacc (v : BitVec 10) (h : q ≠ .wacc) : regValue (s.setWacc v) q = regValue s q := by
  cases q
  case wacc => exact absurd rfl h
  all_goals rfl

theorem regValue_setAcc (b : Block Half) (h : ∀ r i, q ≠ .accw r i) :
    regValue (s.setAcc b) q = regValue s q := by
  cases q
  case accw r i => exact absurd rfl (h r i)
  all_goals rfl

theorem regValue_setDev (v : Half) (h : q ≠ .dev) : regValue (s.setDev v) q = regValue s q := by
  cases q
  case dev => exact absurd rfl h
  all_goals rfl

theorem regValue_setDevp (v : Half) (h : q ≠ .devp) : regValue (s.setDevp v) q = regValue s q := by
  cases q
  case devp => exact absurd rfl h
  all_goals rfl

theorem regValue_setDevn (v : Half) (h : q ≠ .devn) : regValue (s.setDevn v) q = regValue s q := by
  cases q
  case devn => exact absurd rfl h
  all_goals rfl

theorem regValue_setThr (v : Half) (h : q ≠ .thr) : regValue (s.setThr v) q = regValue s q := by
  cases q
  case thr => exact absurd rfl h
  all_goals rfl

theorem regValue_setWw (v : Word) (h : q ≠ .ww) : regValue (s.setWw v) q = regValue s q := by
  cases q
  case ww => exact absurd rfl h
  all_goals rfl

theorem regValue_setResid (v : Word) (h : q ≠ .resid) : regValue (s.setResid v) q = regValue s q := by
  cases q
  case resid => exact absurd rfl h
  all_goals rfl

/-- `STATUS` shows `RVALID`, which the table carries. -/
theorem regValue_setTable (v : List Half) (hs : q ≠ .status) (h : ∀ n, q ≠ .recipw n) :
    regValue (s.setTable v) q = regValue s q := by
  cases q
  case status => exact absurd rfl hs
  case recipw n => exact absurd rfl (h n)
  all_goals rfl

theorem regValue_setTile (x y : Word) (hx : q ≠ .tx) (hy : q ≠ .ty) :
    regValue (s.setTile x y) q = regValue s q := by
  cases q
  case tx => exact absurd rfl hx
  case ty => exact absurd rfl hy
  all_goals rfl

theorem regValue_setAnchors (sx sy bx bY : Word) (hsx : q ≠ .sx) (hsy : q ≠ .sy) (hbx : q ≠ .bx)
    (hby : q ≠ .bY) : regValue (s.setAnchors sx sy bx bY) q = regValue s q := by
  cases q
  case sx => exact absurd rfl hsx
  case sy => exact absurd rfl hsy
  case bx => exact absurd rfl hbx
  case bY => exact absurd rfl hby
  all_goals rfl

theorem regValue_setLatch (g : Geometry) (k : BitVec 4) (h : q ≠ .agstate) :
    regValue (s.setLatch g k) q = regValue s q := by
  cases q
  case agstate => exact absurd rfl h
  all_goals rfl

theorem regValue_setAgdone (v : Bool) (h : q ≠ .status) :
    regValue (s.setAgdone v) q = regValue s q := by
  cases q
  case status => exact absurd rfl h
  all_goals rfl

/-- No register of the map shows memory. -/
theorem regValue_setMem (m : Memory) : regValue (s.setMem m) q = regValue s q := by
  cases q <;> rfl

theorem regValue_takeFault (c : Cause) (w : Word) (hs : q ≠ .status) (hf : q ≠ .finfo) :
    regValue (takeFault s c w) q = regValue s q := by
  unfold takeFault
  split
  · rfl
  · cases q
    case status => exact absurd rfl hs
    case finfo => exact absurd rfl hf
    all_goals rfl

theorem regValue_takeAction (rest : List HostAction) :
    regValue (takeAction s rest) q = regValue s q := by
  cases q <;> rfl

end

/-! # Operations write only their registers -/

/-- An update changes no register that it was not admitted to write. -/
theorem regValue_update {wf : Prop} {W : Reg → Bool} {s t : State} {q : Reg}
    (h : Update wf W s t) (hq : W q = false) (hs : q ≠ .status) : regValue t q = regValue s q := by
  have hne : ∀ {r : Reg}, W r = true → q ≠ r := by
    rintro r hr rfl
    rw [hq] at hr
    cases hr
  cases h with
  | sadr hW => exact regValue_setSadr _ (hne hW)
  | ssum v hW => exact regValue_setSsum v (hne hW)
  | mask v => exact regValue_setMask v hs
  | wacc v hW => exact regValue_setWacc v (hne hW)
  | acc hW => exact regValue_setAcc _ fun r i => hne (hW r i)
  | dev v hW => exact regValue_setDev v (hne hW)
  | devp v hW => exact regValue_setDevp v (hne hW)
  | devn v hW => exact regValue_setDevn v (hne hW)
  | thr v hW => exact regValue_setThr v (hne hW)
  | ww v hW => exact regValue_setWw v (hne hW)
  | resid hW => exact regValue_setResid _ (hne hW)
  | table hW => exact regValue_setTable _ hs fun n => hne (hW n)
  | tile x y hx hy => exact regValue_setTile x y (hne hx) (hne hy)
  | anchors _ _ _ _ hsx hsy hbx hby =>
    exact regValue_setAnchors _ _ _ _ (hne hsx) (hne hsy) (hne hbx) (hne hby)
  | latch g k hW => exact regValue_setLatch g _ (hne hW)
  | agdone v => exact regValue_setAgdone v hs
  | mem v => exact regValue_setMem _

theorem regValue_updates {wf : Prop} {W : Reg → Bool} {s t : State} {q : Reg}
    (h : Updates wf W s t) (hq : W q = false) (hs : q ≠ .status) : regValue t q = regValue s q := by
  induction h with
  | refl => rfl
  | tail _ hstep ih => rw [regValue_update hstep hq hs, ih]

/-- What an operation is not listed as writing reads as before, faulted or not. -/
theorem regValue_exec {i : Instr} {s t : State} {q : Reg} (h : exec i s = .next t)
    (hq : mayWrite i q = false) : regValue t q = regValue s q := by
  have hs : q ≠ .status := by rintro rfl; cases hq
  have hf : q ≠ .finfo := by rintro rfl; cases hq
  obtain ⟨u, hu, rfl | ⟨c, rfl⟩⟩ := exec_updates h
  · exact regValue_updates hu hq hs
  · rw [regValue_takeFault _ _ hs hf, regValue_updates hu hq hs]

/-- Settles O15: every operation runs as updates of the registers listed for it, and an update changes no
other register. -/
theorem operationsWriteOnlyTheirRegisters : Obligations.OperationsWriteOnlyTheirRegisters := by
  intro i s t r h hne
  by_contra hw
  exact hne (regValue_exec h (Bool.eq_false_iff.2 hw))

/-! # Legal register contents -/

section
variable {s t : State}

theorem toNat_ofNat_le (w n : Nat) : (BitVec.ofNat w n).toNat ≤ n := by
  rw [BitVec.toNat_ofNat]
  exact Nat.mod_le _ _

theorem legal_setSadr {n : Nat} (hn : n ≤ 4080) (h : RegistersLegal s) :
    RegistersLegal (s.setSadr (BitVec.ofNat 12 n)) := by
  obtain ⟨hflt, htab, hlatch, hacc, -, hresid⟩ := h
  exact ⟨hflt, htab, hlatch, hacc, (toNat_ofNat_le _ _).trans hn, hresid⟩

theorem legal_setResid {n : Nat} (hn : n ≤ 134640) (h : RegistersLegal s) :
    RegistersLegal (s.setResid (BitVec.ofNat 32 n)) := by
  obtain ⟨hflt, htab, hlatch, hacc, hsadr, -⟩ := h
  exact ⟨hflt, htab, hlatch, hacc, hsadr, (toNat_ofNat_le _ _).trans hn⟩

theorem legal_setAcc {b : Block Half} (hb : LanesWithin s.dp.acc → LanesWithin b)
    (h : RegistersLegal s) : RegistersLegal (s.setAcc b) := by
  obtain ⟨hflt, htab, hlatch, hacc, hsadr, hresid⟩ := h
  exact ⟨hflt, htab, hlatch, hb hacc, hsadr, hresid⟩

/-- The table is a variable, so that no comparison of states computes its entries. -/
theorem legal_setTable {v : List Half} (hv : v = recipTable) (h : RegistersLegal s) :
    RegistersLegal (s.setTable v) := by
  obtain ⟨hflt, -, hlatch, hdata⟩ := h
  have hbuilt : TableLegal (s.setTable v) := by simp [TableLegal, hv]
  exact ⟨hflt, hbuilt, hlatch, hdata⟩

/-- A legal index fits the four bits of `AGK`. -/
theorem walkOk_ofNat {g : Geometry} {k : Nat} (h : walkOk g k = true) :
    (BitVec.ofNat 4 k).toNat = k := by
  rw [BitVec.toNat_ofNat]
  cases g <;> simp [walkOk] at h <;> omega

theorem legal_setLatch {g : Geometry} {k : Nat} (hk : walkOk g k = true) (h : RegistersLegal s) :
    RegistersLegal (s.setLatch g (BitVec.ofNat 4 k)) := by
  obtain ⟨hflt, htab, -, hdata⟩ := h
  refine ⟨hflt, htab, ?_, hdata⟩
  show walkOk g (BitVec.ofNat 4 k).toNat = true
  rwa [walkOk_ofNat hk]

theorem causeCode_bounds (c : Cause) : 1 ≤ (causeCode c).toNat ∧ (causeCode c).toNat ≤ 9 := by
  cases c <;> decide

theorem legal_takeFault (c : Cause) (w : Word) (h : RegistersLegal s) :
    RegistersLegal (takeFault s c w) := by
  obtain ⟨-, htab, hlatch, hdata⟩ := id h
  unfold takeFault
  split
  · exact h
  · exact ⟨⟨nofun, fun _ => causeCode_bounds c⟩, htab, hlatch, hdata⟩

/-- An update keeps the register contents legal: five of them have a bound to meet, the others write what
no rule restricts. -/
theorem legal_update {wf : Prop} {W : Reg → Bool} (hwf : wf) (hu : Update wf W s t)
    (h : RegistersLegal s) : RegistersLegal t := by
  cases hu with
  | sadr _ hn => exact legal_setSadr hn h
  | acc _ hb => exact legal_setAcc hb h
  | resid _ hn => exact legal_setResid hn h
  | table => exact legal_setTable rfl h
  | latch g k _ hk => exact legal_setLatch (hk hwf) h
  | _ => exact h

theorem legal_exec {i : Instr} (hi : i.wf = true) (hexec : exec i s = .next t)
    (h : RegistersLegal s) : RegistersLegal t := by
  obtain ⟨u, hu, ht⟩ := exec_updates hexec
  have hlegal : RegistersLegal u := by
    clear ht
    induction hu with
    | refl => exact h
    | tail _ hstep ih => exact legal_update hi hstep ih
  obtain rfl | ⟨c, rfl⟩ := ht
  · exact hlegal
  · exact legal_takeFault _ _ hlegal

/-- The host can write no register that the rules restrict. -/
theorem legal_regStore (r : Reg) (v : Word) (h : RegistersLegal s) : RegistersLegal (regStore s r v) := by
  cases r <;> exact h

end

theorem legal_reset : RegistersLegal State.reset := by
  have hfault : FaultRecordLegal State.reset := ⟨fun _ => ⟨rfl, rfl⟩, nofun⟩
  have htable : TableLegal State.reset := ⟨fun _ => rfl, nofun⟩
  exact ⟨hfault, htable, rfl, lanesWithin_zero, Nat.zero_le _, Nat.zero_le _⟩

/-! # What a step can do -/

/-- The decoder answers only instructions with legal fields (30_encoding.md R108). -/
theorem decode_wf {w : Word} {i : Instr} (h : decode w = .ok i) : i.wf = true := by
  unfold decode at h
  split at h
  · cases h
  · split at h
    · split at h
      · split at h
        · rename_i hlegal
          cases h
          exact hlegal
        · cases h
      · cases h
    · cases h

/-- What serving one host action in the state `s` can reach. -/
inductive Served (s : State) : State → Prop
  | ignored : Served s s
  | read (v : Word) : Served s (s.setReply (some v))
  | fault (c : Cause) (w : Word) : Served s (takeFault s c w)
  | badRead (off : Word) : Served s ((takeFault s .badreg off).setReply (some 0))
  | reset : Served s (resetUnit s)
  | store (r : Reg) (v : Word) : Served s (regStore s r v)
  | poke (a : Word) (v : Byte) : Served s (s.setMem (memPut s.mem a.toNat v))
  | command {i : Instr} {t : State} (hwf : i.wf = true) (h : exec i s = .next t) : Served s t

theorem runWord_served {w : Word} {s t : State} (h : runWord w s = .next t) : Served s t := by
  unfold runWord at h
  split at h
  · rename_i i hi
    exact .command (decode_wf hi) h
  · cases h
    exact .fault _ _

theorem hostWrite_served {off v : Word} {s t : State} (h : hostWrite off v s = .next t) :
    Served s t := by
  unfold hostWrite at h
  split at h
  · cases h
    exact .fault _ _
  · split at h
    · cases h
      split
      · exact .reset
      · exact .ignored
    · split at h
      · cases h
        exact .ignored
      · split at h
        · cases h
          exact .ignored
        · split at h
          · exact runWord_served h
          · cases h
            exact .store _ _

theorem hostRead_served (off : Word) (s : State) : Served s (hostRead off s) := by
  unfold hostRead
  split
  · exact .badRead off
  · exact .read _

theorem hostPoke_served (a : Word) (v : Byte) (s : State) : Served s (hostPoke a v s) := by
  unfold hostPoke
  split
  · exact .poke a v
  · exact .ignored

theorem serve_served {a : HostAction} {s t : State} (h : serve a s = .next t) : Served s t := by
  cases a with
  | read off => cases h; exact hostRead_served off s
  | write off v => exact hostWrite_served h
  | poke a v => cases h; exact hostPoke_served a v s
  | powerOn => cases h; exact .reset

/-- A step idles, or serves the first host action. -/
theorem step_served {s t : State} (h : step s = .next t) :
    (s.port = [] ∧ t = s) ∨ ∃ a rest, s.port = a :: rest ∧ Served (takeAction s rest) t := by
  unfold step at h
  split at h
  · rename_i hp
    cases h
    exact .inl ⟨hp, rfl⟩
  · rename_i a rest hp
    exact .inr ⟨a, rest, hp, serve_served h⟩

theorem legal_served {s t : State} (hs : Served s t) (h : RegistersLegal s) : RegistersLegal t := by
  cases hs with
  | ignored => exact h
  | read v => exact h
  | fault c w => exact legal_takeFault c w h
  | badRead off => exact legal_takeFault .badreg off h
  | reset => exact legal_reset
  | store r v => exact legal_regStore r v h
  | poke a v => exact h
  | command hwf hexec => exact legal_exec hwf hexec h

/-- Settles O13: whatever a step does, a reset, a register store, a fault or a run of updates, keeps the
register contents legal. -/
theorem registersStayLegal : Obligations.RegistersStayLegal := by
  intro s t h hstep
  obtain ⟨-, rfl⟩ | ⟨_, rest, -, hs⟩ := step_served hstep
  · exact h
  · exact legal_served hs h

/-- Settles O14: the base case of O12 and O13. -/
theorem resetMeetsTheInvariants : Obligations.ResetMeetsTheInvariants :=
  ⟨reset_memory_wf, legal_reset⟩

end Sys2Proof.Machine

/-! # What a host access does

One equation for each test of `HostWrite` and `HostRead`, in the order of 10_state.md R21. -/

namespace Sys2Proof.Machine

section
variable {s : State} {rest : List HostAction} {off v : Word} {r : Reg}

theorem step_write (h : s.port = .write off v :: rest) :
    step s = hostWrite off v (takeAction s rest) := by
  simp only [step, h, serve]

theorem step_read (h : s.port = .read off :: rest) :
    step s = .next (hostRead off (takeAction s rest)) := by
  simp only [step, h, serve]

theorem step_powerOn (h : s.port = .powerOn :: rest) :
    step s = .next (resetUnit (takeAction s rest)) := by
  simp only [step, h, serve]

theorem hostWrite_undefined (h : regAt off.toNat = none) :
    hostWrite off v s = .next (takeFault s .badreg off) := by
  simp only [hostWrite, h]

theorem running_takeAction (h : Running s) : Running (takeAction s rest) := h

theorem regAt_ctrl : regAt (0x00C : Word).toNat = some .ctrl := rfl

theorem hostWrite_ctrl :
    hostWrite 0x00C v s = .next (if v.getLsbD 0 then resetUnit s else s) := by
  simp only [hostWrite, regAt_ctrl, if_true]

theorem hostWrite_ignored (h : regAt off.toNat = some r) (hr : r ≠ .ctrl)
    (hi : s.flt.fault = true ∨ regAccess r = .ro) : hostWrite off v s = .next s := by
  rcases hi with hf | hro
  · simp [hostWrite, h, hr, hf]
  · simp [hostWrite, h, hr, hro]

theorem hostWrite_cmd (hs : Running s) : hostWrite cmdOffset v s = runWord v s := by
  have h : regAt cmdOffset.toNat = some .cmd := rfl
  simp [hostWrite, h, hs, regAccess]

theorem hostWrite_store (h : regAt off.toNat = some r) (hr : regAccess r = .rw) (hs : Running s) :
    hostWrite off v s = .next (regStore s r v) := by
  have hctrl : r ≠ .ctrl := by rintro rfl; cases hr
  have hcmd : r ≠ .cmd := by rintro rfl; cases hr
  simp [hostWrite, h, hctrl, hcmd, hs, hr]

theorem hostRead_undefined (h : regAt off.toNat = none) :
    hostRead off s = (takeFault s .badreg off).setReply (some 0) := by
  simp only [hostRead, h]

theorem hostRead_defined (h : regAt off.toNat = some r) :
    hostRead off s = s.setReply (some (if regAccess r = .wo then 0 else regValue s r)) := by
  simp only [hostRead, h]

theorem takeFault_running (hs : Running s) (c : Cause) (w : Word) :
    takeFault s c w = s.setFlt { fault := true, cause := causeCode c, finfo := w } := by
  simp [takeFault, hs]

end

/-- Settles O5: a write to `CMD` passes every test of R21 before it and runs the word. -/
theorem stepRunsTheCommand : Obligations.StepRunsTheCommand := by
  intro s rest w i hport hrun hdec
  rw [step_write hport, hostWrite_cmd (running_takeAction hrun), runWord, hdec]

/-- Settles O6: each case is one equation of `hostWrite` or `hostRead`. -/
theorem portSemantics : Obligations.PortSemantics := by
  intro s rest off v
  constructor
  · intro hport
    rw [step_write hport]
    refine ⟨fun hoff hrun => ?undefined, fun hoff hf => ?faulted, ?ctrl, fun r hr hne hi => ?ignored⟩
    case undefined => rw [hostWrite_undefined hoff, takeFault_running (running_takeAction hrun)]; rfl
    case faulted => rw [hostWrite_undefined hoff, takeFault_faulted (s := takeAction s rest) hf]
    case ctrl =>
      rintro rfl
      exact hostWrite_ctrl
    case ignored => exact hostWrite_ignored hr hne hi
  · intro hport
    rw [step_read hport]
    refine ⟨fun hoff hrun => ?undefined, fun hoff hf => ?faulted, fun r hr => ?defined⟩
    case undefined => rw [hostRead_undefined hoff, takeFault_running (running_takeAction hrun)]; rfl
    case faulted => rw [hostRead_undefined hoff, takeFault_faulted (s := takeAction s rest) hf]
    case defined => rw [hostRead_defined hr, regValue_takeAction]

/-! # Writing a register and reading it back -/

/-- A 16-bit register reads back the low half of what was written. -/
theorem setWidth_setWidth_half (v : Word) : (v.setWidth 16).setWidth 32 = v &&& 0x0000FFFF := by
  ext i hi
  interval_cases i <;> simp

/-- `MODE` reads back bits 5:4 and 2:0 (10_state.md R33). -/
theorem modeWord_extract (c : CfgRegs) (v : Word) :
    modeWord { c with modeP := v.extractLsb' 0 3, modeR1 := v.extractLsb' 4 2 } = v &&& 0x00000037 := by
  apply BitVec.eq_of_getLsbD_eq
  intro i hi
  simp only [modeWord, BitVec.getLsbD_append, BitVec.getLsbD_and]
  interval_cases i <;> simp

theorem and_full (v : Word) : v &&& 0xFFFFFFFF = v := BitVec.and_allOnes

/-- A register that the host may write reads back what was written, cut to its width. -/
theorem regValue_regStore_same {s : State} {r : Reg} (v : Word) (h : regAccess r = .rw) :
    regValue (regStore s r v) r = v &&& writeMask r := by
  cases r
  case width | height | lambda | tmax | tp1 | thr | dev | devp | devn => exact setWidth_setWidth_half v
  case mode => exact modeWord_extract s.cfg v
  case id | cmd | status | ctrl | finfo | agstate | sadr | ssum | wacc | resid | accw | recipw => cases h
  all_goals exact (and_full v).symm

/-- A write of one register is read in no other. -/
theorem regValue_regStore_other {s : State} {r q : Reg} (v : Word) (h : q ≠ r) :
    regValue (regStore s r v) q = regValue s q := by
  cases r
  case thr => exact regValue_setThr _ h
  case dev => exact regValue_setDev _ h
  case devp => exact regValue_setDevp _ h
  case devn => exact regValue_setDevn _ h
  case ww => exact regValue_setWw _ h
  case id | cmd | status | ctrl | finfo | agstate | sadr | ssum | wacc | resid | accw | recipw => rfl
  -- The configuration and the anchors: the register written is excluded, and any other is a field kept.
  all_goals cases q
  all_goals first | exact absurd rfl h | rfl

/-- A register write touches nothing outside the unit. -/
theorem regStore_outside (s : State) (r : Reg) (v : Word) :
    (regStore s r v).mem = s.mem ∧ (regStore s r v).plat = s.plat ∧ (regStore s r v).port = s.port ∧
      (regStore s r v).reply = s.reply := by
  cases r <;> exact ⟨rfl, rfl, rfl, rfl⟩

/-- Settles O7: the step is one `regStore`, whose reads are the two lemmas above. -/
theorem registersDoNotAlias : Obligations.RegistersDoNotAlias := by
  intro s rest off v r hport hrun hoff hrw
  have hstep : step s = .next (regStore (takeAction s rest) r v) := by
    rw [step_write hport, hostWrite_store hoff hrw (running_takeAction hrun)]
  obtain ⟨hmem, hplat, hport', hreply⟩ := regStore_outside (takeAction s rest) r v
  refine ⟨_, hstep, regValue_regStore_same v hrw, fun q hq => ?_, hmem, hplat, hport', hreply⟩
  rw [regValue_regStore_other v hq, regValue_takeAction]

/-! # Reset -/

theorem regValue_reset (r : Reg) : regValue State.reset r = if r = .id then 0x46524637 else 0 := by
  cases r
  case accw r h =>
    have hrow : State.reset.dp.acc.get r = Quad.fill 0 := Quad.get_fill _ r
    simp only [regValue, accWord, hrow]
    split <;> rfl
  case recipw n =>
    have hentry : recipAt State.reset.tab n.val = 0 := by
      simp [recipAt, State.reset, TableRegs.reset]
    simp only [regValue, hentry]
    rfl
  all_goals rfl

/-- Both resets leave the registers as `State.reset` has them. -/
theorem regValue_resetUnit (s : State) (r : Reg) : regValue (resetUnit s) r = regValue State.reset r := by
  cases r <;> rfl

theorem step_reset {s : State} {rest : List HostAction} {v : Word} (hv : v.getLsbD 0 = true)
    (h : s.port = .powerOn :: rest ∨ s.port = .write 0x00C v :: rest) :
    step s = .next (resetUnit (takeAction s rest)) := by
  rcases h with hport | hport
  · exact step_powerOn hport
  · rw [step_write hport, hostWrite_ctrl, hv, if_pos rfl]

/-- Settles O9: both resets are `resetUnit`. -/
theorem resetValues : Obligations.ResetValues := by
  refine ⟨regValue_reset, fun s rest v hv hport => ⟨_, step_reset hv hport, rfl, fun r => ?_⟩⟩
  rw [regValue_resetUnit, regValue_reset]

/-! # Composed registers -/

/-- An appended word, as a number: the high part weighs `2 ^ m`. -/
theorem toNat_append_eq {n m : Nat} (x : BitVec n) (y : BitVec m) :
    (x ++ y).toNat = y.toNat + 2 ^ m * x.toNat := by
  rw [BitVec.toNat_append, ← Nat.shiftLeft_add_eq_or_of_lt y.isLt, Nat.shiftLeft_eq, Nat.mul_comm,
    Nat.add_comm]

/-- Settles O10: each word is its fields appended. -/
theorem composedRegisters : Obligations.ComposedRegisters := by
  intro s
  refine ⟨?status, ?mode, ?agstate, fun r => ⟨?even, ?odd⟩⟩
  case status =>
    simp only [regValue, statusWord, toNat_append_eq, BitVec.toNat_ofBool, BitVec.ofNat_eq_ofNat,
      BitVec.toNat_zero]
    omega
  case mode =>
    simp only [regValue, modeWord, toNat_append_eq, BitVec.ofNat_eq_ofNat, BitVec.toNat_zero]
    omega
  case agstate =>
    simp only [regValue, agstateWord, toNat_append_eq, BitVec.ofNat_eq_ofNat, BitVec.toNat_zero]
    cases s.ag.agg <;> simp only [geometryCode, BitVec.reduceToNat] <;> omega
  case even => exact toNat_append_eq _ _
  case odd => exact toNat_append_eq _ _

end Sys2Proof.Machine

/-! # The canonical form of memory is kept

A byte reaches memory through `memPut` only, at an address of 32 bits: the write-back checks it (20_memory.md
R72, R77), and a host store has a 32-bit address to begin with. -/

namespace Sys2Proof.Machine

/-- An update leaves memory alone or puts one byte. -/
theorem update_mem {wf : Prop} {W : Reg → Bool} {s t : State} (hu : Update wf W s t) :
    t.mem = s.mem ∨ ∃ a v, a ≤ addrMax ∧ t.mem = memPut s.mem a v := by
  cases hu with
  | mem v ha => exact .inr ⟨_, v, ha, rfl⟩
  | table => exact .inl (State.setTable_mem s recipTable)
  | _ => exact .inl rfl

theorem memCanonical_update {wf : Prop} {W : Reg → Bool} {s t : State} (hu : Update wf W s t)
    (h : MemCanonical s) : MemCanonical t := by
  obtain hm | ⟨a, v, ha, hm⟩ := update_mem hu
  · rwa [MemCanonical, hm]
  · rw [MemCanonical, hm]
    exact memPut_wf _ _ v h ha

theorem memCanonical_takeFault {s : State} (c : Cause) (w : Word) (h : MemCanonical s) :
    MemCanonical (takeFault s c w) := by
  rwa [MemCanonical, takeFault_mem]

theorem memCanonical_exec {i : Instr} {s t : State} (hexec : exec i s = .next t)
    (h : MemCanonical s) : MemCanonical t := by
  obtain ⟨u, hu, ht⟩ := exec_updates hexec
  have hcanonical : MemCanonical u := by
    clear ht
    induction hu with
    | refl => exact h
    | tail _ hstep ih => exact memCanonical_update hstep ih
  obtain rfl | ⟨c, rfl⟩ := ht
  · exact hcanonical
  · exact memCanonical_takeFault _ _ hcanonical

theorem word_le_addrMax (a : Word) : a.toNat ≤ addrMax := Nat.le_of_lt_succ a.isLt

theorem memCanonical_served {s t : State} (hs : Served s t) (h : MemCanonical s) : MemCanonical t := by
  cases hs with
  | ignored => exact h
  | read v => exact h
  | fault c w => exact memCanonical_takeFault c w h
  | badRead off => exact memCanonical_takeFault .badreg off h
  | reset => exact h
  | store r v => rwa [MemCanonical, (regStore_outside s r v).1]
  | poke a v => exact memPut_wf _ _ v h (word_le_addrMax a)
  | command _ hexec => exact memCanonical_exec hexec h

/-- Settles O12: whatever a step serves, memory changes by `memPut` at 32-bit addresses only. -/
theorem memoryFormKept : Obligations.MemoryFormKept := by
  intro s t h hstep
  obtain ⟨-, rfl⟩ | ⟨_, rest, -, hs⟩ := step_served hstep
  · exact h
  · exact memCanonical_served hs h

end Sys2Proof.Machine

/-! # Sample and block reads -/

namespace Sys2Proof.Machine

/-- The three tests of a sample read, in their order (20_memory.md R74). -/
theorem px_eq (s : State) (p : Plane) (x y : Int) :
    px s p x y =
      if x < 0 ∨ s.cfg.width.toNat ≤ x ∨ y < 0 ∨ s.cfg.height.toNat ≤ y then .error .oob
      else if 0xFFFFFFFF < linearAddr s.cfg p x y then .error .aovf
      else if s.inMemDom (linearAddr s.cfg p x y) then .ok (s.byteAt (linearAddr s.cfg p x y))
      else .error .bus := by
  by_cases hin : x < 0 ∨ s.cfg.width.toNat ≤ x ∨ y < 0 ∨ s.cfg.height.toNat ≤ y
  · have hplane : inPlane s.cfg x y = false := by
      simp only [inPlane, Bool.and_eq_false_iff, decide_eq_false_iff_not]
      omega
    simp [px, sampleAddr, hplane, hin]
  · have hplane : inPlane s.cfg x y = true := by
      simp only [inPlane, Bool.and_eq_true, decide_eq_true_eq]
      omega
    rw [if_neg hin]
    by_cases ha : addrMax < linearAddr s.cfg p x y
    · rw [if_pos (show 0xFFFFFFFF < linearAddr s.cfg p x y from ha)]
      simp [px, sampleAddr, hplane, ha]
    · rw [if_neg (show ¬ 0xFFFFFFFF < linearAddr s.cfg p x y from ha)]
      simp [px, sampleAddr, hplane, ha, memRead]

/-- The sample of a block that a lane names by row and column (20_memory.md R75). -/
def blkSample (s : State) (p : Plane) (x y : Int) (l : Fin 4 × Fin 4) : Except Cause Byte :=
  px s p (x + l.2.val) (y + l.1.val)

theorem blk_ok_iff_samples (s : State) (p : Plane) (x y : Int) (b : Block Byte) :
    blk s p x y = .ok b ↔ ∀ r c : Fin 4, blkSample s p x y (r, c) = .ok ((b.get r).get c) := by
  simp [blk_ok_iff, pxRow_ok_iff, blkSample, Fin.forall_fin_succ, Quad.get]

/-- Whether a read answers, without its value. -/
def answers {α : Type} (x : Except Cause α) : Except Cause Unit := (fun _ => ()) <$> x

theorem answers_ok {α : Type} (v : α) : answers (.ok v) = .ok () := rfl

theorem answers_error_iff {α : Type} {x : Except Cause α} {e : Cause} :
    answers x = .error e ↔ x = .error e := by
  cases x <;> simp [answers]

/-- But for the values it gathers, a block read is its sixteen sample reads one after the other. -/
theorem answers_blk (s : State) (p : Plane) (x y : Int) :
    answers (blk s p x y) = lanes.forM fun l => answers (blkSample s p x y l) := by
  simp [answers, blk, pxRow, blkSample, lanes, map_bind]

/-- Reads in a row end at the first one that fails. -/
theorem forM_first_error {α β : Type} {f : α → Except Cause β} {before after : List α} {l : α}
    {e : Cause} (hbefore : ∀ k ∈ before, ∃ v, f k = .ok v) (hl : f l = .error e) :
    ((before ++ l :: after).forM fun k => answers (f k)) = .error e := by
  induction before with
  | nil =>
    have hstop : answers (f l) = .error e := answers_error_iff.2 hl
    simp [hstop, bind, Except.bind]
  | cons k ks ih =>
    obtain ⟨⟨v, hk⟩, hks⟩ := List.forall_mem_cons.1 hbefore
    simpa [hk, answers_ok, bind, Except.bind] using ih hks

theorem blk_first_error {s : State} {p : Plane} {x y : Int} {before after : List (Fin 4 × Fin 4)}
    {l : Fin 4 × Fin 4} {e : Cause} (hlanes : lanes = before ++ l :: after)
    (hbefore : ∀ k ∈ before, ∃ v, blkSample s p x y k = .ok v)
    (hl : blkSample s p x y l = .error e) : blk s p x y = .error e := by
  rw [← answers_error_iff, answers_blk, hlanes]
  exact forM_first_error hbefore hl

/-- Settles O19: a sample read is its three tests, and a block read its sixteen samples in `lanes` order. -/
theorem sampleAndBlockReads : Obligations.SampleAndBlockReads :=
  ⟨px_eq, fun s p x y => ⟨blk_ok_iff_samples s p x y, fun _ _ _ _ => blk_first_error⟩⟩

end Sys2Proof.Machine

/-! # Every operation is confined to its planes

One pass over the operations (`confined_opOf`) shows two things of each at once: it leaves every byte outside
the buffers it writes, and it runs the same from any two memories that agree on the buffers it touches
(20_memory.md R88). The buffers depend on the configuration, which no operation changes. -/

namespace Sys2Proof.Machine

/-- The bytes at the addresses of `A` are the same. -/
def SameBytes (A : Nat → Prop) (s t : State) : Prop := ∀ a, A a → t.byteAt a = s.byteAt a

/-- The same outcome, reached with another memory. -/
def withMem {α : Type} (r : EStateM.Result Cause State α) (m : Memory) : EStateM.Result Cause State α :=
  match r with
  | .ok a t => .ok a (t.setMem m)
  | .error e t => .error e (t.setMem m)

/-- Pseudocode that, in the configuration `c`, depends on the bytes of `T` only and writes bytes of `Wr`
only. `reads` compares two runs whose memories agree on `T`: the outcomes differ in memory only, and the
memories agree on `T` again. -/
structure Confined (c : CfgRegs) (T Wr : Nat → Prop) {α : Type} (op : Op α) : Prop where
  cfg : ∀ s, s.cfg = c → (endState (op s)).cfg = c
  frame : ∀ s, s.cfg = c → SameBytes (fun a => ¬ Wr a) s (endState (op s))
  reads : ∀ s m, s.cfg = c → SameBytes T s (s.setMem m) → ∃ m', op (s.setMem m) = withMem (op s) m' ∧
    SameBytes T (endState (op s)) ((endState (op s)).setMem m')

/-- A reading step that depends on the bytes of `T` only. -/
def LocalRead (c : CfgRegs) (T : Nat → Prop) {α : Type} (f : State → Except Cause α) : Prop :=
  ∀ s m, s.cfg = c → SameBytes T s (s.setMem m) → f (s.setMem m) = f s

/-- The samples of a plane are addresses of `A`. -/
def CoversPlane (c : CfgRegs) (p : Plane) (A : Nat → Prop) : Prop :=
  ∀ x : Nat, x < c.width.toNat → ∀ y : Nat, y < c.height.toNat → A (linearAddr c p x y)

/-- The entries of the weight map are addresses of `A`. -/
def CoversWmap (c : CfgRegs) (A : Nat → Prop) : Prop := ∀ a, ¬ OutsideWmap c a → A a

/-- The addresses that R88 lets an operation write. -/
def MayStore (i : Instr) (c : CfgRegs) (a : Nat) : Prop :=
  (writesDst i = true ∧ ¬ OutsideDst c a) ∨ (writesWmap i c = true ∧ ¬ OutsideWmap c a)

/-- The table of R88: an operation that writes the destination touches it. -/
theorem touchesDst_of_writesDst {i : Instr} (c : CfgRegs) (h : writesDst i = true) :
    touchesPlane i c .dst = true := by
  cases i with
  | store | blend | diff | filt | afilt | ofilt | dfilt | tile1 | tile2a | tile2b | pass1 | pass2a | pass2b
  | runplane => rfl
  | _ => cases h

/-- The table of R88: an operation that writes the weight map touches it. -/
theorem touchesWmap_of_writesWmap {i : Instr} {c : CfgRegs} (h : writesWmap i c = true) :
    touchesWmap i c = true := by
  cases i with
  | tile2a | pass2a => rfl
  | runplane => exact h
  | _ => cases h

/-- What an operation may write, it may touch. -/
theorem mayTouch_of_mayStore {i : Instr} {c : CfgRegs} {a : Nat} (h : MayStore i c a) :
    MayTouch i c a := by
  rcases h with ⟨hw, ha⟩ | ⟨hw, ha⟩
  · simp only [OutsideDst, not_forall, not_not] at ha
    obtain ⟨x, hx, y, hy, rfl⟩ := ha
    exact .inl ⟨.dst, touchesDst_of_writesDst c hw, x, hx, y, hy, rfl⟩
  · exact .inr ⟨touchesWmap_of_writesWmap hw, ha⟩

section
variable {α β : Type} {c : CfgRegs} {T Wr : Nat → Prop}

/-! ## Composition -/

theorem endState_withMem (r : EStateM.Result Cause State α) (m : Memory) :
    endState (withMem r m) = (endState r).setMem m := by
  cases r <;> rfl

/-- Pseudocode that passes memory through, whatever it holds. -/
theorem confined_of_passing {op : Op α} (hcfg : ∀ s, (endState (op s)).cfg = s.cfg)
    (hmem : ∀ s m, op (s.setMem m) = withMem (op s) m) : Confined c T Wr op := by
  have hkept : ∀ s, (endState (op s)).mem = s.mem := fun s => by
    have h : (endState (op s)).mem = (endState (withMem (op s) s.mem)).mem :=
      congrArg (fun r => (endState r).mem) (hmem s s.mem)
    rwa [endState_withMem, State.setMem_mem] at h
  refine ⟨fun s hc => (hcfg s).trans hc, fun s _ a _ => byteAt_of_mem (hkept s) a, fun s m _ hm => ?_⟩
  refine ⟨m, hmem s m, fun a ha => ?_⟩
  rw [← byteAt_of_mem (hkept s).symm a, ← hm a ha]
  rfl

theorem confined_pure (a : α) : Confined c T Wr (pure a : Op α) :=
  confined_of_passing (fun _ => rfl) fun _ _ => rfl

theorem confined_raise (e : Cause) : Confined c T Wr (raise e : Op α) :=
  confined_of_passing (fun _ => rfl) fun _ _ => rfl

/-- A register update that does not look at memory. -/
theorem confined_modify {f : State → State} (hcfg : ∀ s, (f s).cfg = s.cfg)
    (hmem : ∀ s m, f (s.setMem m) = (f s).setMem m) : Confined c T Wr (modify f : Op PUnit) :=
  confined_of_passing hcfg fun s m => congrArg (EStateM.Result.ok PUnit.unit) (hmem s m)

theorem confined_look {f : State → Except Cause α} (hf : LocalRead c T f) : Confined c T Wr (look f) := by
  have hend : ∀ s, endState (look f s) = s := fun s => by
    rw [op_look]
    split <;> rfl
  refine ⟨fun s hc => by rwa [hend], fun s _ a _ => by rw [hend], fun s m hc hm => ⟨m, ?_, by rwa [hend]⟩⟩
  rw [op_look, op_look, hf s m hc hm]
  cases f s <;> rfl

/-- A step whose answer says something of the value it hands on. -/
theorem confined_bind_of_ok {x : Op α} {f : α → Op β} (hx : Confined c T Wr x)
    (hf : ∀ a s t, s.cfg = c → x s = .ok a t → Confined c T Wr (f a)) : Confined c T Wr (x >>= f) := by
  refine ⟨fun s hc => ?cfg, fun s hc a ha => ?frame, fun s m hc hm => ?reads⟩
  case cfg =>
    have hcfg := hx.cfg s hc
    rw [op_bind]
    cases h : x s with
    | error e t => rwa [h] at hcfg
    | ok v t => rw [h] at hcfg; exact (hf v s t hc h).cfg t hcfg
  case frame =>
    have hcfg := hx.cfg s hc
    have hframe := hx.frame s hc a ha
    rw [op_bind]
    cases h : x s with
    | error e t => rwa [h] at hframe
    | ok v t =>
      rw [h] at hcfg hframe
      exact ((hf v s t hc h).frame t hcfg a ha).trans hframe
  case reads =>
    have hcfg := hx.cfg s hc
    obtain ⟨m', hrun, hm'⟩ := hx.reads s m hc hm
    rw [op_bind, op_bind, hrun]
    cases h : x s with
    | error e t => rw [h] at hm'; exact ⟨m', rfl, hm'⟩
    | ok v t => rw [h] at hcfg hm'; exact (hf v s t hc h).reads t m' hcfg hm'

theorem confined_bind {x : Op α} {f : α → Op β} (hx : Confined c T Wr x)
    (hf : ∀ a, Confined c T Wr (f a)) : Confined c T Wr (x >>= f) :=
  confined_bind_of_ok hx fun a _ _ _ _ => hf a

theorem confined_look_bind {f : State → Except Cause α} {g : α → Op β} (hf : LocalRead c T f)
    (hg : ∀ a, Confined c T Wr (g a)) : Confined c T Wr (look f >>= g) :=
  confined_bind (confined_look hf) hg

/-- Pseudocode chosen by the state, but not by its memory. -/
theorem confined_get {f : State → Op β} (hmem : ∀ s m, f (s.setMem m) = f s)
    (hf : ∀ s, s.cfg = c → Confined c T Wr (f s)) : Confined c T Wr (get >>= f) := by
  refine ⟨fun s hc => (hf s hc).cfg s hc, fun s hc => (hf s hc).frame s hc, fun s m hc hm => ?_⟩
  have hrun : (get >>= f) (s.setMem m) = f s (s.setMem m) := congrFun (hmem s m) _
  rw [hrun]
  exact (hf s hc).reads s m hc hm

/-- `x` keeps the configuration from `s`, and `y` runs as it does from the same registers with the memory
`m`, which both pass through. -/
structure PassesMemory (s : State) (m : Memory) (x y : Op α) : Prop where
  cfg : (endState (x s)).cfg = s.cfg
  run : y (s.setMem m) = withMem (x s) m

theorem passesMemory_ite {s : State} {m : Memory} {p : Prop} [Decidable p] {x x' y y' : Op α}
    (hx : PassesMemory s m x y) (hy : PassesMemory s m x' y') :
    PassesMemory s m (if p then x else x') (if p then y else y') := by
  split <;> assumption

/-- Pseudocode that tests registers and then updates them or raises. -/
theorem confined_registers {f : State → Op β} (hf : ∀ s m, PassesMemory s m (f s) (f (s.setMem m))) :
    Confined c T Wr (get >>= f) :=
  confined_of_passing (fun s => (hf s s.mem).cfg) fun s m => (hf s m).run

theorem confined_ite {p : Prop} [Decidable p] {x y : Op α} (hx : p → Confined c T Wr x)
    (hy : ¬ p → Confined c T Wr y) : Confined c T Wr (if p then x else y) := by
  split
  · exact hx ‹_›
  · exact hy ‹_›

/-! ## Memory -/

theorem localRead_memRead {a : Nat} (ha : T a) : LocalRead c T fun s => memRead s a := by
  intro s m _ hm
  simp only [memRead, hm a ha, inMemDom_of_plat (State.setMem_plat s m)]

theorem coversPlane_apply {p : Plane} {A : Nat → Prop} (h : CoversPlane c p A) {x y : Int}
    (hin : inPlane c x y = true) : A (linearAddr c p x y) := by
  simp only [inPlane, Bool.and_eq_true, decide_eq_true_eq] at hin
  obtain ⟨⟨⟨hx0, hx⟩, hy0⟩, hy⟩ := hin
  lift x to Nat using hx0
  lift y to Nat using hy0
  exact h x (by omega) y (by omega)

theorem px_setMem {p : Plane} (hp : CoversPlane c p T) {s : State} {m : Memory} (hc : s.cfg = c)
    (hm : SameBytes T s (s.setMem m)) : px (s.setMem m) p = px s p := by
  funext x y
  unfold px
  rw [State.setMem_cfg]
  cases h : sampleAddr s.cfg p x y with
  | error e => rfl
  | ok a =>
    obtain ⟨hin, -, rfl⟩ := (sampleAddr_ok_iff _ _ _ _ _).1 h
    subst hc
    exact localRead_memRead (coversPlane_apply hp hin) s m rfl hm

theorem blk_setMem {p : Plane} (hp : CoversPlane c p T) {s : State} {m : Memory} (hc : s.cfg = c)
    (hm : SameBytes T s (s.setMem m)) (x y : Int) : blk (s.setMem m) p x y = blk s p x y := by
  simp only [blk, pxRow, px_setMem hp hc hm]

theorem localRead_candBlk {p : Plane} (hp : CoversPlane c p T) (a : Anchor) (dx dy : Int) :
    LocalRead c T fun s => candBlk s p a dx dy :=
  fun _ _ hc hm => blk_setMem hp hc hm _ _

theorem localRead_candRow {p : Plane} (hp : CoversPlane c p T) (a : Anchor) (dx dy : Int) (row : Fin 4) :
    LocalRead c T fun s => pxRow s p ((anchorPos s a).1 + dx) ((anchorPos s a).2 + dy + row.val) := by
  intro s m hc hm
  simp only [pxRow, px_setMem hp hc hm]
  rfl

theorem confined_memWrite {a : Nat} (ha : Wr a) (v : Byte) : Confined c T Wr (memWrite a v) := by
  have hdom : ∀ (s : State) (m : Memory), (s.setMem m).inMemDom a = s.inMemDom a :=
    fun s m => inMemDom_of_plat (State.setMem_plat s m) a
  refine ⟨fun s hc => ?cfg, fun s _ b hb => ?frame, fun s m _ hm => ?reads⟩
  case cfg => unfold memWrite; split <;> exact hc
  case frame =>
    unfold memWrite
    split
    · exact byteAt_memPut_other s a b v fun h => hb (h ▸ ha)
    · rfl
  case reads =>
    unfold memWrite
    rw [hdom]
    split
    · refine ⟨memPut m a v, rfl, fun b hb => ?_⟩
      obtain rfl | hne := eq_or_ne b a
      · exact (byteAt_memPut_same (s.setMem m) b v).trans (byteAt_memPut_same s b v).symm
      · have hput := byteAt_memPut_other (s.setMem m) a b v hne
        exact (hput.trans (hm b hb)).trans (byteAt_memPut_other s a b v hne).symm
    · exact ⟨m, rfl, hm⟩

theorem confined_wrpx (hd : CoversPlane c .dst Wr) (x y : Int) (v : Byte) :
    Confined c T Wr (wrpx x y v) := by
  refine confined_bind_of_ok (confined_look fun _ _ _ _ => rfl) fun a s t hc h => ?_
  obtain ⟨hin, -, rfl⟩ := (sampleAddr_ok_iff s.cfg .dst x y a).1 (look_inv h).1
  subst hc
  exact confined_memWrite (coversPlane_apply hd hin) v

/-! ## The accumulator, the SAD unit and the threshold operations -/

theorem confined_clraOp : Confined c T Wr clraOp := confined_modify (fun _ => rfl) fun _ _ => rfl

theorem confined_accrowOp {cp : Plane} (hp : CoversPlane c cp T) (ca : Anchor) (dx dy : Int) (row : Fin 4) :
    Confined c T Wr (accrowOp cp ca dx dy row) :=
  confined_get (fun _ _ => rfl) fun _ _ => confined_ite
    (fun _ => confined_look_bind (localRead_candRow hp ca dx dy row) fun _ =>
      confined_registers fun _ _ => passesMemory_ite ⟨rfl, rfl⟩ ⟨rfl, rfl⟩)
    fun _ => confined_pure _

theorem confined_accblkOp {cp : Plane} (hp : CoversPlane c cp T) (ca : Anchor) (dx dy : Int) :
    Confined c T Wr (accblkOp cp ca dx dy) :=
  confined_get (fun _ _ => rfl) fun _ _ => confined_ite
    (fun _ => confined_look_bind (localRead_candBlk hp ca dx dy) fun _ =>
      confined_registers fun _ _ => passesMemory_ite ⟨rfl, rfl⟩ ⟨rfl, rfl⟩)
    fun _ => confined_pure _

theorem confined_sadOp {rp cp : Plane} (hr : CoversPlane c rp T) (hp : CoversPlane c cp T) (ra ca : Anchor)
    (dx dy : Int) : Confined c T Wr (sadOp rp ra cp ca dx dy) :=
  confined_look_bind (localRead_candBlk hr ra 0 0) fun _ =>
    confined_look_bind (localRead_candBlk hp ca dx dy) fun _ =>
      confined_modify (fun _ => rfl) fun _ _ => rfl

theorem confined_cmpOp : Confined c T Wr cmpOp :=
  confined_registers fun _ _ =>
    passesMemory_ite (passesMemory_ite ⟨rfl, rfl⟩ ⟨rfl, rfl⟩) ⟨rfl, rfl⟩

theorem confined_ssaddOp : Confined c T Wr ssaddOp :=
  confined_registers fun _ _ => passesMemory_ite ⟨rfl, rfl⟩ ⟨rfl, rfl⟩

theorem confined_bsadOp {cp : Plane} (hsrc : CoversPlane c .src T) (hp : CoversPlane c cp T) :
    Confined c T Wr (bsadOp cp) :=
  confined_look_bind (localRead_candBlk hsrc .s 0 0) fun _ =>
    confined_look_bind (localRead_candBlk hp .s 0 0) fun _ =>
      confined_modify (fun _ => by split <;> rfl) fun _ _ => by split <;> rfl

/-- The offsets of `DEVL` are the platform's, not memory's. -/
theorem confined_devlOp (hsrc : CoversPlane c .src T) : Confined c T Wr devlOp :=
  have hblk := localRead_candBlk hsrc .s
  confined_get (fun _ _ => rfl) fun _ _ =>
    confined_look_bind (hblk _ _) fun _ => confined_look_bind (hblk _ _) fun _ =>
      confined_look_bind (hblk _ _) fun _ => confined_look_bind (hblk _ _) fun _ =>
        confined_modify (fun _ => rfl) fun _ _ => rfl

theorem confined_dminOp : Confined c T Wr dminOp := confined_modify (fun _ => rfl) fun _ _ => rfl

theorem confined_threshOp : Confined c T Wr threshOp := confined_modify (fun _ => rfl) fun _ _ => rfl

/-! ## The write-back -/

theorem confined_rcp {g : Nat → Op β} (hg : ∀ q, Confined c T Wr (g q)) :
    Confined c T Wr (look rcp >>= g) :=
  confined_look_bind (fun _ _ _ _ => rfl) hg

theorem confined_eachLane {f : Fin 4 → Fin 4 → Op Nat} (hf : ∀ r k, Confined c T Wr (f r k))
    (ls : List (Fin 4 × Fin 4)) : Confined c T Wr (eachLane f ls) := by
  induction ls with
  | nil => exact confined_pure 0
  | cons l ls ih =>
    obtain ⟨r, k⟩ := l
    exact confined_bind (hf r k) fun _ => confined_bind ih fun _ => confined_pure _

theorem confined_storeLane (hd : CoversPlane c .dst Wr) (q : Nat) (r k : Fin 4) :
    Confined c T Wr (storeLane q r k) :=
  confined_get (fun _ _ => rfl) fun _ _ => confined_bind (confined_wrpx hd _ _ _) fun _ => confined_pure _

theorem confined_storeOp (hd : CoversPlane c .dst Wr) : Confined c T Wr storeOp :=
  confined_rcp fun q =>
    confined_bind (confined_eachLane (confined_storeLane hd q) lanes) fun _ => confined_pure _

theorem localRead_px {p : Plane} (hp : CoversPlane c p T) (r k : Fin 4) :
    LocalRead c T fun s => px s p (baseLane s r k).1 (baseLane s r k).2 :=
  fun _ _ hc hm => congrFun₂ (px_setMem hp hc hm) _ _

theorem confined_blendLane (hd : CoversPlane c .dst T) (hs : CoversPlane c .dst Wr) (q : Nat)
    (r k : Fin 4) : Confined c T Wr (blendLane q r k) :=
  confined_get (fun _ _ => rfl) fun _ _ =>
    confined_look_bind (localRead_px hd r k) fun _ =>
      confined_bind (confined_wrpx hs _ _ _) fun _ => confined_pure _

theorem confined_blendOp (hd : CoversPlane c .dst T) (hs : CoversPlane c .dst Wr) :
    Confined c T Wr blendOp :=
  confined_rcp fun q =>
    confined_bind (confined_eachLane (confined_blendLane hd hs q) lanes) fun _ => confined_pure _

theorem confined_diffOp (hd : CoversPlane c .dst T) (hs : CoversPlane c .dst Wr) :
    Confined c T Wr diffOp :=
  confined_rcp fun q =>
    confined_bind (confined_eachLane (confined_blendLane hd hs q) lanes) fun _ =>
      confined_modify (fun _ => rfl) fun _ _ => rfl

theorem confined_packOp (alpha : Nat) : Confined c T Wr (packOp alpha) :=
  confined_modify (fun _ => rfl) fun _ _ => rfl

/-! ## Kernels -/

/-- The buffers of a kernel: the source and the destination are read, the destination is written. -/
structure KernelBuffers (c : CfgRegs) (T Wr : Nat → Prop) : Prop where
  src : CoversPlane c .src T
  dst : CoversPlane c .dst T
  store : CoversPlane c .dst Wr

theorem confined_candOp {cp : Plane} (hsrc : CoversPlane c .src T) (hp : CoversPlane c cp T) (ca : Anchor)
    (sum : Bool) (dx dy : Int) : Confined c T Wr (candOp cp ca sum dx dy) := by
  have hrest : Confined c T Wr (cmpOp >>= fun _ => accblkOp cp ca dx dy) :=
    confined_bind confined_cmpOp fun _ => confined_accblkOp hp ca dx dy
  refine confined_bind (confined_sadOp hsrc hp _ _ _ _) fun _ => ?_
  cases sum with
  | false => exact hrest
  | true => exact confined_bind confined_ssaddOp fun _ => hrest

theorem confined_scanOp {cp : Plane} (hsrc : CoversPlane c .src T) (hp : CoversPlane c cp T) (ca : Anchor)
    (sum : Bool) (os : List (Int × Int)) : Confined c T Wr (scanOp cp ca sum os) := by
  induction os with
  | nil => exact confined_pure _
  | cons o os ih => exact confined_bind (confined_candOp hsrc hp ca sum o.1 o.2) fun _ => ih

/-- The shape of a kernel: clear, scan, write back (R181 to R184). -/
theorem confined_kernel {cp : Plane} (hsrc : CoversPlane c .src T) (hp : CoversPlane c cp T)
    {writeBack : Op Unit} (hwb : Confined c T Wr writeBack) (ca : Anchor) (sum : Bool)
    (os : List (Int × Int)) :
    Confined c T Wr (clraOp >>= fun _ => scanOp cp ca sum os >>= fun _ => writeBack) :=
  confined_bind confined_clraOp fun _ =>
    confined_bind (confined_scanOp hsrc hp ca sum os) fun _ => hwb

theorem confined_filtOp (h : KernelBuffers c T Wr) (r : Nat) : Confined c T Wr (filtOp r) :=
  confined_kernel h.src h.src (confined_storeOp h.store) _ _ _

theorem confined_afiltOp (h : KernelBuffers c T Wr) (r : Nat) : Confined c T Wr (afiltOp r) := by
  have hstore : Confined c T Wr storeOp := confined_storeOp h.store
  have hscan : ∀ d, Confined c T Wr (scanOp .src .s true (ring d)) :=
    fun d => confined_scanOp h.src h.src .s true (ring d)
  refine confined_kernel h.src h.src
    (confined_get (fun _ _ => rfl) fun _ _ => confined_ite (fun _ => ?wider) fun _ => hstore) _ _ _
  case wider =>
    exact confined_bind (hscan 2) fun _ => confined_get (fun _ _ => rfl) fun _ _ =>
      confined_ite (fun _ => confined_bind (hscan 3) fun _ => hstore) fun _ => hstore

theorem confined_ofiltOp (h : KernelBuffers c T Wr) {cp : Plane} (hp : CoversPlane c cp T) (r : Nat) :
    Confined c T Wr (ofiltOp r cp) :=
  confined_kernel h.src hp (confined_blendOp h.dst h.store) _ _ _

theorem confined_dfiltOp (h : KernelBuffers c T Wr) : Confined c T Wr dfiltOp :=
  confined_kernel h.src h.src (confined_diffOp h.dst h.store) _ _ _

/-! ## The address generator -/

theorem confined_agstartOp (g : Geometry) (k : Nat) : Confined c T Wr (agstartOp g k) :=
  confined_registers fun _ _ =>
    passesMemory_ite (passesMemory_ite ⟨rfl, rfl⟩ ⟨rfl, rfl⟩) ⟨rfl, rfl⟩

theorem confined_agnextOp : Confined c T Wr agnextOp :=
  confined_registers fun _ _ =>
    passesMemory_ite ⟨rfl, rfl⟩
      (passesMemory_ite
        (passesMemory_ite ⟨rfl, rfl⟩ (passesMemory_ite ⟨rfl, rfl⟩ ⟨rfl, rfl⟩)) ⟨rfl, rfl⟩)

theorem confined_agclampOp (g : Geometry) (k : Nat) : Confined c T Wr (agclampOp g k) :=
  confined_registers fun _ _ => passesMemory_ite ⟨rfl, rfl⟩ ⟨rfl, rfl⟩

/-! ## Tiles -/

theorem confined_temporalBlend (h : KernelBuffers c T Wr) {cp : Plane} (hp : CoversPlane c cp T)
    (r k : Nat) : Confined c T Wr (temporalBlend r k cp) :=
  confined_bind (confined_packOp k) fun _ => confined_ofiltOp h hp r

theorem confined_tile1Temporal (h : KernelBuffers c T Wr) (hprev : CoversPlane c .prev T)
    (hnext : CoversPlane c .next T) (r : Nat) : Confined c T Wr (tile1Temporal r) := by
  have hnextBlend : ∀ k, Confined c T Wr (temporalBlend r k .next) := confined_temporalBlend h hnext r
  have hskip : Confined c T Wr (pure () : Op Unit) := confined_pure ()
  refine confined_bind (confined_filtOp h 0) fun _ =>
    confined_get (fun _ _ => rfl) fun _ _ => confined_get (fun _ _ => rfl) fun _ _ =>
      confined_ite (fun _ => ?both) fun _ => ?nextOnly
  case both =>
    exact confined_bind (confined_temporalBlend h hprev r 1) fun _ =>
      confined_get (fun _ _ => rfl) fun _ _ => confined_get (fun _ _ => rfl) fun _ _ =>
        confined_ite (fun _ => hnextBlend 2) fun _ => hskip
  case nextOnly =>
    exact confined_get (fun _ _ => rfl) fun _ _ => confined_get (fun _ _ => rfl) fun _ _ =>
      confined_ite (fun _ => hnextBlend 1) fun _ => hskip

/-- `TILE1` reads the neighbour frames in temporal mode only (45_scan_driver.md R210). -/
theorem confined_tile1Op (h : KernelBuffers c T Wr)
    (htemporal : ∀ p, modeT c = true → CoversPlane c p T) : Confined c T Wr tile1Op := by
  refine confined_get (fun _ _ => rfl) fun s hc => confined_ite (fun _ => confined_raise _) fun _ => ?_
  refine confined_bind (confined_devlOp h.src) fun _ =>
    confined_ite (fun hT => ?temporal) fun _ => ?spatial
  case temporal =>
    rw [hc] at hT
    have hprev := htemporal .prev hT
    have hnext := htemporal .next hT
    exact confined_bind (confined_bsadOp h.src hprev) fun _ =>
      confined_bind (confined_bsadOp h.src hnext) fun _ => confined_bind confined_dminOp fun _ =>
        confined_bind confined_threshOp fun _ => confined_tile1Temporal h hprev hnext _
  case spatial =>
    exact confined_bind confined_threshOp fun _ =>
      confined_ite (fun _ => confined_afiltOp h _) fun _ => confined_filtOp h _

/-- The entry of a tile is an entry of the weight map (20_memory.md R77). -/
theorem tileEntry_not_outside {s : State} {a : Nat} (h : tileEntry s = .ok a) : ¬ OutsideWmap s.cfg a := by
  unfold tileEntry wmaddr at h
  split at h
  · split at h
    · cases h
    · rename_i hin
      split at h
      · cases h
      · cases h
        exact fun hout => hout _ (by omega) _ (by omega) rfl
  · cases h

/-- What follows a tile's entry is run for an address of the weight map. -/
theorem confined_tileEntry {g : Nat → Op β} (hg : ∀ a, ¬ OutsideWmap c a → Confined c T Wr (g a)) :
    Confined c T Wr (look tileEntry >>= g) :=
  confined_bind_of_ok (confined_look fun _ _ _ _ => rfl) fun a _ _ hc h =>
    hg a (hc ▸ tileEntry_not_outside (look_inv h).1)

theorem confined_tile2aOp (h : KernelBuffers c T Wr) (hw : CoversWmap c Wr) :
    Confined c T Wr tile2aOp :=
  confined_tileEntry fun a ha => confined_get (fun _ _ => rfl) fun _ _ =>
    confined_bind (confined_packOp _) fun _ => confined_bind (confined_dfiltOp h) fun _ =>
      confined_get (fun _ _ => rfl) fun _ _ => confined_memWrite (hw a ha) _

theorem confined_tile2bOp (h : KernelBuffers c T Wr) (hw : CoversWmap c T) :
    Confined c T Wr tile2bOp :=
  have hrefine : ∀ k, Confined c T Wr (packOp k >>= fun _ => ofiltOp 2 .src) :=
    fun k => confined_bind (confined_packOp k) fun _ => confined_ofiltOp h h.src 2
  confined_get (fun _ _ => rfl) fun _ _ => confined_ite
    (fun _ => confined_tileEntry fun a ha =>
      confined_look_bind (localRead_memRead (hw a ha)) fun _ =>
        confined_ite (fun _ => hrefine _) fun _ => confined_pure _)
    fun _ => confined_raise _

/-! ## Passes -/

theorem confined_walkTiles {tile : Op Unit} (ht : Confined c T Wr tile) (n : Nat) :
    Confined c T Wr (walkTiles tile n) := by
  induction n with
  | zero => exact confined_pure _
  | succ n ih =>
    exact confined_get (fun _ _ => rfl) fun _ _ => confined_ite (fun _ => confined_pure _) fun _ =>
      confined_bind ht fun _ => confined_bind confined_agnextOp fun _ => ih

theorem confined_walkOp {tile : Op Unit} (ht : Confined c T Wr tile) (g : Geometry) (k : Nat) :
    Confined c T Wr (walkOp g k tile) :=
  confined_bind (confined_agstartOp g k) fun _ =>
    confined_get (fun _ _ => rfl) fun _ _ => confined_walkTiles ht _

theorem confined_pass1Op (h : KernelBuffers c T Wr)
    (htemporal : ∀ p, modeT c = true → CoversPlane c p T) : Confined c T Wr pass1Op :=
  confined_get (fun _ _ => rfl) fun _ _ => confined_ite
    (fun _ => confined_walkOp (confined_tile1Op h htemporal) _ _) fun _ => confined_raise _

theorem confined_pass2Open : Confined c T Wr pass2Open :=
  confined_registers fun _ _ => passesMemory_ite ⟨rfl, rfl⟩ ⟨rfl, rfl⟩

theorem confined_pass2aOp (h : KernelBuffers c T Wr) (hw : CoversWmap c Wr) :
    Confined c T Wr pass2aOp :=
  confined_bind confined_pass2Open fun _ => confined_walkOp (confined_tile2aOp h hw) _ _

theorem confined_sweepsOp (h : KernelBuffers c T Wr) (hw : CoversWmap c T) (ks : List Nat) :
    Confined c T Wr (sweepsOp ks) := by
  induction ks with
  | nil => exact confined_pure _
  | cons k ks ih => exact confined_bind (confined_walkOp (confined_tile2bOp h hw) _ k) fun _ => ih

theorem confined_pass2bOp (h : KernelBuffers c T Wr) (hw : CoversWmap c T) :
    Confined c T Wr pass2bOp :=
  confined_bind confined_pass2Open fun _ => confined_sweepsOp h hw _

/-- `RUNPLANE` runs the second pass, with its weight map, in adaptive-overlapping mode only
(45_scan_driver.md R219). -/
theorem confined_runplaneOp (h : KernelBuffers c T Wr)
    (htemporal : ∀ p, modeT c = true → CoversPlane c p T)
    (hread : modeAO c = true → CoversWmap c T) (hwrite : modeAO c = true → CoversWmap c Wr) :
    Confined c T Wr runplaneOp := by
  refine confined_get (fun _ _ => rfl) fun s hc => confined_ite (fun _ => ?_) fun _ => confined_raise _
  refine confined_bind (confined_pass1Op h htemporal) fun _ =>
    confined_ite (fun hAO => ?_) fun _ => confined_pure _
  rw [hc] at hAO
  exact confined_bind (confined_pass2aOp h (hwrite hAO)) fun _ => confined_pass2bOp h (hread hAO)

end

/-! ## All thirty operations -/

/-- The table is a variable, so that no comparison of states computes its entries. -/
theorem setTable_setMem (s : State) (m : Memory) (v : List Half) :
    (s.setMem m).setTable v = (s.setTable v).setMem m := rfl

theorem confined_rbuildOp {c : CfgRegs} {T Wr : Nat → Prop} : Confined c T Wr rbuildOp :=
  confined_modify (fun s => State.setTable_cfg s recipTable) fun s m => setTable_setMem s m recipTable

section
variable {i : Instr} {c : CfgRegs}

theorem mayTouch_coversPlane {p : Plane} (h : touchesPlane i c p = true) :
    CoversPlane c p (MayTouch i c) :=
  fun x hx y hy => .inl ⟨p, h, x, hx, y, hy, rfl⟩

theorem mayTouch_coversWmap (h : touchesWmap i c = true) : CoversWmap c (MayTouch i c) :=
  fun _ ha => .inr ⟨h, ha⟩

theorem mayStore_coversDst (h : writesDst i = true) : CoversPlane c .dst (MayStore i c) :=
  fun x hx y hy => .inl ⟨h, fun hout => hout x hx y hy rfl⟩

theorem mayStore_coversWmap (h : writesWmap i c = true) : CoversWmap c (MayStore i c) :=
  fun _ ha => .inr ⟨h, ha⟩

theorem kernelBuffers_of_table (hsrc : touchesPlane i c .src = true) (hdst : touchesPlane i c .dst = true)
    (hw : writesDst i = true) : KernelBuffers c (MayTouch i c) (MayStore i c) :=
  ⟨mayTouch_coversPlane hsrc, mayTouch_coversPlane hdst, mayStore_coversDst hw⟩

end

/-- Every instruction is confined to the buffers that R88 lists for it. -/
theorem confined_opOf (i : Instr) (c : CfgRegs) :
    Confined c (MayTouch i c) (MayStore i c) (opOf i) := by
  cases i with
  | nop => exact confined_pure _
  | rbuild => exact confined_rbuildOp
  | sad rp ra cp ca dx dy =>
    exact confined_sadOp (mayTouch_coversPlane (by simp [touchesPlane]))
      (mayTouch_coversPlane (by simp [touchesPlane])) _ _ _ _
  | cmp => exact confined_cmpOp
  | ssadd => exact confined_ssaddOp
  | bsad cp =>
    exact confined_bsadOp (mayTouch_coversPlane rfl) (mayTouch_coversPlane (by simp [touchesPlane]))
  | devl => exact confined_devlOp (mayTouch_coversPlane rfl)
  | dmin => exact confined_dminOp
  | thresh => exact confined_threshOp
  | clra => exact confined_clraOp
  | accrow cp => exact confined_accrowOp (mayTouch_coversPlane (by simp [touchesPlane])) _ _ _ _
  | accblk cp => exact confined_accblkOp (mayTouch_coversPlane (by simp [touchesPlane])) _ _ _
  | store => exact confined_storeOp (mayStore_coversDst rfl)
  | blend => exact confined_blendOp (mayTouch_coversPlane rfl) (mayStore_coversDst rfl)
  | diff => exact confined_diffOp (mayTouch_coversPlane rfl) (mayStore_coversDst rfl)
  | pack alpha => exact confined_packOp alpha
  | filt r => exact confined_filtOp (kernelBuffers_of_table rfl rfl rfl) r
  | afilt r => exact confined_afiltOp (kernelBuffers_of_table rfl rfl rfl) r
  | ofilt r cp =>
    exact confined_ofiltOp (kernelBuffers_of_table rfl rfl rfl)
      (mayTouch_coversPlane (by simp [touchesPlane])) r
  | dfilt => exact confined_dfiltOp (kernelBuffers_of_table rfl rfl rfl)
  | agstart g k => exact confined_agstartOp g k
  | agnext => exact confined_agnextOp
  | agclamp g k => exact confined_agclampOp g k
  | tile1 =>
    exact confined_tile1Op (kernelBuffers_of_table rfl rfl rfl) fun p hT =>
      mayTouch_coversPlane (by simp [touchesPlane, hT])
  | tile2a => exact confined_tile2aOp (kernelBuffers_of_table rfl rfl rfl) (mayStore_coversWmap rfl)
  | tile2b => exact confined_tile2bOp (kernelBuffers_of_table rfl rfl rfl) (mayTouch_coversWmap rfl)
  | pass1 =>
    exact confined_pass1Op (kernelBuffers_of_table rfl rfl rfl) fun p hT =>
      mayTouch_coversPlane (by simp [touchesPlane, hT])
  | pass2a => exact confined_pass2aOp (kernelBuffers_of_table rfl rfl rfl) (mayStore_coversWmap rfl)
  | pass2b => exact confined_pass2bOp (kernelBuffers_of_table rfl rfl rfl) (mayTouch_coversWmap rfl)
  | runplane =>
    exact confined_runplaneOp (kernelBuffers_of_table rfl rfl rfl)
      (fun p hT => mayTouch_coversPlane (by simp [touchesPlane, hT]))
      (fun hAO => mayTouch_coversWmap hAO) fun hAO => mayStore_coversWmap hAO

/-- What an operation may not store to reads as before, faulted or not. -/
theorem byteAt_exec {i : Instr} {s t : State} {a : Nat} (h : exec i s = .next t)
    (ha : ¬ MayStore i s.cfg a) : t.byteAt a = s.byteAt a := by
  have hframe := (confined_opOf i s.cfg).frame s rfl a ha
  rw [exec_eq] at h
  rcases command_next h with hop | ⟨e, u, hop, rfl⟩
  · rwa [hop] at hframe
  · rw [hop] at hframe
    rwa [byteAt_of_mem (takeFault_mem u e _)]

/-- No update reaches outside the unit, but for memory. -/
theorem update_outside {wf : Prop} {W : Reg → Bool} {s t : State} (h : Update wf W s t) :
    t.plat = s.plat ∧ t.port = s.port ∧ t.reply = s.reply := by
  cases h with
  | table =>
    exact ⟨State.setTable_plat s recipTable, State.setTable_port s recipTable,
      State.setTable_reply s recipTable⟩
  | _ => exact ⟨rfl, rfl, rfl⟩

theorem exec_outside {i : Instr} {s t : State} (h : exec i s = .next t) :
    t.plat = s.plat ∧ t.port = s.port ∧ t.reply = s.reply := by
  obtain ⟨u, hu, ht⟩ := exec_updates h
  have hu' : u.plat = s.plat ∧ u.port = s.port ∧ u.reply = s.reply := by
    clear ht
    induction hu with
    | refl => exact ⟨rfl, rfl, rfl⟩
    | tail _ hstep ih =>
      obtain ⟨hplat, hport, hreply⟩ := update_outside hstep
      rwa [hplat, hport, hreply]
  obtain rfl | ⟨e, rfl⟩ := ht
  · exact hu'
  · simpa using hu'

/-- Settles O16: the destination and the weight map are all that `MayStore` admits. -/
theorem operationsWriteOnlyTheirPlanes : Obligations.OperationsWriteOnlyTheirPlanes := by
  intro i s t hexec
  obtain ⟨hplat, hport, hreply⟩ := exec_outside hexec
  refine ⟨hplat, hport, hreply, fun a hdst hwmap => byteAt_exec hexec ?_⟩
  rintro (⟨hw, ha⟩ | ⟨hw, ha⟩)
  · exact ha (hdst hw)
  · exact ha (hwmap hw)

theorem takeFault_setMem (s : State) (m : Memory) (e : Cause) (w : Word) :
    takeFault (s.setMem m) e w = (takeFault s e w).setMem m := by
  unfold takeFault
  rw [State.setMem_flt]
  split <;> rfl

theorem command_withMem {i : Instr} {op : Op Unit} {s t : State} {m m' : Memory}
    (hrun : op (s.setMem m) = withMem (op s) m') (h : command i op s = .next t) :
    command i op (s.setMem m) = .next (t.setMem m') ∧ t.mem = (endState (op s)).mem := by
  rcases command_next h with hop | ⟨e, u, hop, rfl⟩
  · rw [hop] at hrun ⊢
    exact ⟨command_ok hrun, rfl⟩
  · rw [hop] at hrun ⊢
    rw [← takeFault_setMem]
    exact ⟨command_error hrun, takeFault_mem _ _ _⟩

/-- Settles O17: the two runs of a confined operation differ in memory only and agree on what it touches. The
rest is the frame of each run. -/
theorem operationsReadOnlyTheirPlanes : Obligations.OperationsReadOnlyTheirPlanes := by
  intro i s t m hexec hm
  obtain ⟨m', hrun, hm'⟩ := (confined_opOf i s.cfg).reads s m rfl hm
  have hexec' : exec i (s.setMem m) = .next (t.setMem m') ∧ t.mem = (endState (opOf i s)).mem := by
    rw [exec_eq] at hexec ⊢
    exact command_withMem hrun hexec
  obtain ⟨hnext, hmem⟩ := hexec'
  refine ⟨t.setMem m', hnext, rfl, fun a ha => ?_, fun a ha => ?_⟩
  · rw [byteAt_of_mem hmem, ← hm' a ha]
    rfl
  · have hstore : ¬ MayStore i s.cfg a := fun h => ha (mayTouch_of_mayStore h)
    exact ⟨byteAt_exec hnext hstore, byteAt_exec hexec hstore⟩

end Sys2Proof.Machine

/-! # The command word as nine fields

What 30_encoding.md R102 says of the fields of a word: their place in its number, and that a word and its
nine fields determine each other. -/

namespace Sys2Proof

theorem toNat_append_eq_add {m n : Nat} (x : BitVec m) (y : BitVec n) :
    (x ++ y).toNat = x.toNat * 2 ^ n + y.toNat := by
  rw [BitVec.toNat_append, ← Nat.shiftLeft_add_eq_or_of_lt y.isLt, Nat.shiftLeft_eq]

section
variable (w v : Word)

theorem toNat_extractLsb'_eq (start len : Nat) :
    (w.extractLsb' start len).toNat = w.toNat / 2 ^ start % 2 ^ len := by
  rw [BitVec.extractLsb'_toNat, Nat.shiftRight_eq_div_pow]

/-- The top field needs no remainder. -/
theorem toNat_fieldOp : (fieldOp w).toNat = w.toNat / 2 ^ 24 := by
  rw [fieldOp, toNat_extractLsb'_eq]
  omega

theorem toNat_fieldRp : (fieldRp w).toNat = w.toNat / 2 ^ 22 % 4 :=
  toNat_extractLsb'_eq w 22 2

theorem toNat_fieldRa : (fieldRa w).toNat = w.toNat / 2 ^ 21 % 2 :=
  toNat_extractLsb'_eq w 21 1

theorem toNat_fieldCp : (fieldCp w).toNat = w.toNat / 2 ^ 19 % 4 :=
  toNat_extractLsb'_eq w 19 2

theorem toNat_fieldCa : (fieldCa w).toNat = w.toNat / 2 ^ 18 % 2 :=
  toNat_extractLsb'_eq w 18 1

theorem toNat_fieldDx : (fieldDx w).toNat = w.toNat / 2 ^ 14 % 16 :=
  toNat_extractLsb'_eq w 14 4

theorem toNat_fieldDy : (fieldDy w).toNat = w.toNat / 2 ^ 10 % 16 :=
  toNat_extractLsb'_eq w 10 4

theorem toNat_fieldSel : (fieldSel w).toNat = w.toNat / 2 ^ 8 % 4 :=
  toNat_extractLsb'_eq w 8 2

/-- The lowest field needs no quotient. -/
theorem toNat_fieldImm : (fieldImm w).toNat = w.toNat % 2 ^ 8 := by
  rw [fieldImm, toNat_extractLsb'_eq, Nat.pow_zero, Nat.div_one]

@[simp] theorem fieldOp_and : fieldOp (w &&& v) = fieldOp w &&& fieldOp v := BitVec.extractLsb'_and
@[simp] theorem fieldRp_and : fieldRp (w &&& v) = fieldRp w &&& fieldRp v := BitVec.extractLsb'_and
@[simp] theorem fieldRa_and : fieldRa (w &&& v) = fieldRa w &&& fieldRa v := BitVec.extractLsb'_and
@[simp] theorem fieldCp_and : fieldCp (w &&& v) = fieldCp w &&& fieldCp v := BitVec.extractLsb'_and
@[simp] theorem fieldCa_and : fieldCa (w &&& v) = fieldCa w &&& fieldCa v := BitVec.extractLsb'_and
@[simp] theorem fieldDx_and : fieldDx (w &&& v) = fieldDx w &&& fieldDx v := BitVec.extractLsb'_and
@[simp] theorem fieldDy_and : fieldDy (w &&& v) = fieldDy w &&& fieldDy v := BitVec.extractLsb'_and
@[simp] theorem fieldSel_and : fieldSel (w &&& v) = fieldSel w &&& fieldSel v := BitVec.extractLsb'_and
@[simp] theorem fieldImm_and : fieldImm (w &&& v) = fieldImm w &&& fieldImm v := BitVec.extractLsb'_and

end

section
variable (op : BitVec 8) (rp : BitVec 2) (ra : BitVec 1) (cp : BitVec 2) (ca : BitVec 1)
  (dx dy : BitVec 4) (sel : BitVec 2) (imm : BitVec 8)

theorem toNat_assemble : (assemble op rp ra cp ca dx dy sel imm).toNat =
    op.toNat * 2 ^ 24 + rp.toNat * 2 ^ 22 + ra.toNat * 2 ^ 21 + cp.toNat * 2 ^ 19 + ca.toNat * 2 ^ 18
      + dx.toNat * 2 ^ 14 + dy.toNat * 2 ^ 10 + sel.toNat * 2 ^ 8 + imm.toNat := by
  simp only [assemble, toNat_append_eq_add]
  omega

@[simp] theorem fieldOp_assemble : fieldOp (assemble op rp ra cp ca dx dy sel imm) = op :=
  BitVec.eq_of_toNat_eq (by rw [toNat_fieldOp, toNat_assemble]; omega)

@[simp] theorem fieldRp_assemble : fieldRp (assemble op rp ra cp ca dx dy sel imm) = rp :=
  BitVec.eq_of_toNat_eq (by rw [toNat_fieldRp, toNat_assemble]; omega)

@[simp] theorem fieldRa_assemble : fieldRa (assemble op rp ra cp ca dx dy sel imm) = ra :=
  BitVec.eq_of_toNat_eq (by rw [toNat_fieldRa, toNat_assemble]; omega)

@[simp] theorem fieldCp_assemble : fieldCp (assemble op rp ra cp ca dx dy sel imm) = cp :=
  BitVec.eq_of_toNat_eq (by rw [toNat_fieldCp, toNat_assemble]; omega)

@[simp] theorem fieldCa_assemble : fieldCa (assemble op rp ra cp ca dx dy sel imm) = ca :=
  BitVec.eq_of_toNat_eq (by rw [toNat_fieldCa, toNat_assemble]; omega)

@[simp] theorem fieldDx_assemble : fieldDx (assemble op rp ra cp ca dx dy sel imm) = dx :=
  BitVec.eq_of_toNat_eq (by rw [toNat_fieldDx, toNat_assemble]; omega)

@[simp] theorem fieldDy_assemble : fieldDy (assemble op rp ra cp ca dx dy sel imm) = dy :=
  BitVec.eq_of_toNat_eq (by rw [toNat_fieldDy, toNat_assemble]; omega)

@[simp] theorem fieldSel_assemble : fieldSel (assemble op rp ra cp ca dx dy sel imm) = sel :=
  BitVec.eq_of_toNat_eq (by rw [toNat_fieldSel, toNat_assemble]; omega)

@[simp] theorem fieldImm_assemble : fieldImm (assemble op rp ra cp ca dx dy sel imm) = imm :=
  BitVec.eq_of_toNat_eq (by rw [toNat_fieldImm, toNat_assemble]; omega)

end

/-- Two neighbouring fields, read as one. -/
theorem div_mul_add_div_mod {n : Nat} (hi lo len m : Nat) (hhi : hi = lo + len) (hm : m = 2 ^ len) :
    n / 2 ^ hi * 2 ^ len + n / 2 ^ lo % m = n / 2 ^ lo := by
  rw [hhi, hm, Nat.pow_add, ← Nat.div_div_eq_div_mul]
  exact Nat.div_add_mod' _ _

/-- The nine fields cover the word. -/
theorem assemble_fields (w : Word) :
    assemble (fieldOp w) (fieldRp w) (fieldRa w) (fieldCp w) (fieldCa w) (fieldDx w) (fieldDy w)
      (fieldSel w) (fieldImm w) = w := by
  apply BitVec.eq_of_toNat_eq
  simp only [assemble, toNat_append_eq_add]
  rw [toNat_fieldOp, toNat_fieldRp, div_mul_add_div_mod 24 22 2 4 rfl rfl,
    toNat_fieldRa, div_mul_add_div_mod 22 21 1 2 rfl rfl,
    toNat_fieldCp, div_mul_add_div_mod 21 19 2 4 rfl rfl,
    toNat_fieldCa, div_mul_add_div_mod 19 18 1 2 rfl rfl,
    toNat_fieldDx, div_mul_add_div_mod 18 14 4 16 rfl rfl,
    toNat_fieldDy, div_mul_add_div_mod 14 10 4 16 rfl rfl,
    toNat_fieldSel, div_mul_add_div_mod 10 8 2 4 rfl rfl,
    toNat_fieldImm, Nat.div_add_mod']

/-- Words are equal when their fields are. -/
theorem word_eq_iff_fields {w v : Word} : w = v ↔
    fieldOp w = fieldOp v ∧ fieldRp w = fieldRp v ∧ fieldRa w = fieldRa v ∧ fieldCp w = fieldCp v ∧
      fieldCa w = fieldCa v ∧ fieldDx w = fieldDx v ∧ fieldDy w = fieldDy v ∧ fieldSel w = fieldSel v ∧
      fieldImm w = fieldImm v := by
  refine ⟨fun h => by simp [h], ?_⟩
  rintro ⟨hop, hrp, hra, hcp, hca, hdx, hdy, hsel, himm⟩
  rw [← assemble_fields w, ← assemble_fields v, hop, hrp, hra, hcp, hca, hdx, hdy, hsel, himm]

/-! ## The formats -/

/-- The word that carries `op` and the fields that the format uses, with every other bit 0 (R103). -/
def Format.usedPart (w : Word) : Format → Word
  | .z => assembleZ (fieldOp w)
  | .s => assemble (fieldOp w) (fieldRp w) (fieldRa w) (fieldCp w) (fieldCa w) (fieldDx w) (fieldDy w) 0 0
  | .p => assemble (fieldOp w) 0 0 (fieldCp w) 0 0 0 0 0
  | .ar => assemble (fieldOp w) 0 0 (fieldCp w) (fieldCa w) (fieldDx w) (fieldDy w) (fieldSel w) 0
  | .ab => assemble (fieldOp w) 0 0 (fieldCp w) (fieldCa w) (fieldDx w) (fieldDy w) 0 0
  | .i => assemble (fieldOp w) 0 0 0 0 0 0 0 (fieldImm w)
  | .k => assemble (fieldOp w) 0 0 0 0 0 0 (fieldSel w) 0
  | .kp => assemble (fieldOp w) 0 0 (fieldCp w) 0 0 0 (fieldSel w) 0
  | .g => assemble (fieldOp w) 0 0 0 0 0 0 (fieldSel w) (BitVec.ofNat 8 (fieldK w))

theorem append_zero_eq_assembleZ (op : BitVec 8) : op ++ (0 : BitVec 24) = assembleZ op :=
  BitVec.eq_of_toNat_eq ((toNat_append_eq_add op 0).trans (by simp [assembleZ, toNat_assemble]))

/-- A field wholly in a mask. -/
abbrev ones {n : Nat} : BitVec n := .allOnes n

/-- The fields of each mask: all ones where the format does not use the field (R103). -/
def Format.maskFields : Format → Word
  | .z => assemble ones ones ones ones ones ones ones ones ones
  | .s => assemble ones 0 0 0 0 0 0 ones ones
  | .p => assemble ones ones ones 0 ones ones ones ones ones
  | .ar => assemble ones ones ones 0 0 0 0 0 ones
  | .ab => assemble ones ones ones 0 0 0 0 ones ones
  | .i => assemble ones ones ones ones ones ones ones ones 0
  | .k => assemble ones ones ones ones ones ones ones 0 ones
  | .kp => assemble ones ones ones 0 ones ones ones 0 ones
  | .g => assemble ones ones ones ones ones ones ones 0 0xF0

theorem mask_eq_maskFields (f : Format) : f.mask = f.maskFields := by
  cases f <;> decide

/-- A byte with no high nibble is its low nibble. -/
theorem and_highNibble_eq_zero (x : BitVec 8) : x &&& 0xF0#8 = 0#8 ↔ x = BitVec.ofNat 8 (x.toNat % 16) := by
  revert x
  decide +kernel

/-- The decoder's test of the unused bits (R101, R103): nothing but the used part is in the word. -/
theorem mask_eq_op_iff (w : Word) (f : Format) :
    w &&& f.mask = fieldOp w ++ (0 : BitVec 24) ↔ w = f.usedPart w := by
  rw [append_zero_eq_assembleZ, mask_eq_maskFields, word_eq_iff_fields, word_eq_iff_fields (w := w)]
  cases f <;> simp [Format.maskFields, Format.usedPart, assembleZ, fieldK, and_highNibble_eq_zero,
    -BitVec.reduceAllOnes]

end Sys2Proof

/-! # Decoding and encoding

A word decodes to `i` when its opcode has a format, its unused bits are 0 and its used fields name `i` with
legal operands; `encode i` is then its used part (30_encoding.md R101 to R108). -/

namespace Sys2Proof

section
variable {w : Word} {i : Instr} {f : Format}

theorem decode_eq_ok_iff : decode w = .ok i ↔
    ∃ f, opFormat (fieldOp w).toNat = some f ∧ w = f.usedPart w ∧ readInstr w = some i ∧ i.wf = true := by
  constructor
  · intro h
    have hwf := Machine.decode_wf h
    unfold decode at h
    split at h
    next => cases h
    next f hf =>
      split at h
      next hmask =>
        split at h
        next j hr =>
          split at h
          next => cases h; exact ⟨f, hf, (mask_eq_op_iff w f).1 hmask, hr, hwf⟩
          next => cases h
        next => cases h
      next => cases h
  · rintro ⟨f, hf, hw, hr, hwf⟩
    simp [decode, hf, (mask_eq_op_iff w f).2 hw, hr, legalFields, hwf]

/-! ## Codes -/

@[simp] theorem planeCode_planeOfCode (c : BitVec 2) : planeCode (planeOfCode c) = c := by
  revert c; decide

@[simp] theorem planeOfCode_planeCode (p : Plane) : planeOfCode (planeCode p) = p := by cases p <;> rfl

@[simp] theorem anchorCode_anchorOfCode (c : BitVec 1) : anchorCode (anchorOfCode c) = c := by
  revert c; decide

@[simp] theorem anchorOfCode_anchorCode (a : Anchor) : anchorOfCode (anchorCode a) = a := by cases a <;> rfl

@[simp] theorem geometryOfCode_geometryCode (g : Geometry) : geometryOfCode (geometryCode g) = some g := by
  cases g <;> rfl

theorem geometryCode_of_geometryOfCode {c : BitVec 2} {g : Geometry} (h : geometryOfCode c = some g) :
    geometryCode g = c := by
  revert c; cases g <;> decide

@[simp] theorem offsetField_offsetOfField (f : BitVec 4) : offsetField (offsetOfField f) = f :=
  BitVec.ofInt_toInt

theorem offsetOfField_offsetField {d : Int} (h : offsetOk d = true) : offsetOfField (offsetField d) = d := by
  simp only [offsetOk, Bool.and_eq_true, decide_eq_true_eq] at h
  rw [offsetOfField, offsetField, BitVec.toInt_ofInt]
  exact Int.bmod_eq_of_le (by omega) (by omega)

theorem walkOk_lt {g : Geometry} {k : Nat} (h : walkOk g k = true) : k < 16 := by
  rw [← Machine.walkOk_ofNat h]
  exact (BitVec.ofNat 4 k).isLt

/-! ## The round trip -/

theorem fieldOp_eq_ofNat {n : Nat} (h : (fieldOp w).toNat = n) : fieldOp w = BitVec.ofNat 8 n := by
  rw [← h, BitVec.ofNat_toNat, BitVec.setWidth_eq]

/-- Encoding what the decoder reads gives back the used part of the word. -/
theorem encode_readInstr (hf : opFormat (fieldOp w).toNat = some f) (hr : readInstr w = some i) :
    encode i = f.usedPart w := by
  unfold readInstr at hr
  split at hr
  case h_31 => cases hr
  all_goals
    rename_i hop
    rw [hop] at hf
    cases hf
  -- `AGSTART` and `AGCLAMP`: the word names an operation only if its geometry code is not reserved.
  case h_21.refl hop | h_23.refl hop =>
    obtain ⟨g, hg, rfl⟩ := Option.map_eq_some_iff.1 hr
    simp [encode, Format.usedPart, fieldOp_eq_ofNat hop, geometryCode_of_geometryOfCode hg]
  all_goals
    rename_i hop
    cases hr
    simp [encode, Format.usedPart, fieldOp_eq_ofNat hop, fieldRow]

theorem encode_of_decode (h : decode w = .ok i) : encode i = w := by
  obtain ⟨f, hf, hw, hr, -⟩ := decode_eq_ok_iff.1 h
  rw [encode_readInstr hf hr, ← hw]

/-- The format of an operation (R106). -/
def Instr.format : Instr → Format
  | .sad .. => .s
  | .bsad .. => .p
  | .accrow .. => .ar
  | .accblk .. => .ab
  | .pack .. => .i
  | .filt .. | .afilt .. => .k
  | .ofilt .. => .kp
  | .agstart .. | .agclamp .. => .g
  | _ => .z

theorem opFormat_encode (i : Instr) : opFormat (fieldOp (encode i)).toNat = some i.format := by
  cases i <;> simp [encode, assembleZ, Instr.format, opFormat]

/-- The decoder reads back the operands of each operation; those that R108 bounds fit their fields. -/
theorem readInstr_encode (h : i.wf = true) : readInstr (encode i) = some i := by
  cases i with
  | sad rp ra cp ca dx dy | accrow cp ca dx dy row | accblk cp ca dx dy =>
    obtain ⟨hdx, hdy⟩ := Bool.and_eq_true_iff.1 h
    simp [encode, readInstr, fieldRow, offsetOfField_offsetField hdx, offsetOfField_offsetField hdy]
  | bsad cp => simp [encode, readInstr]
  | pack alpha =>
    have hfits : alpha < 256 := by simp [Instr.wf] at h; omega
    simp [encode, readInstr, hfits]
  | filt r | afilt r | ofilt r cp =>
    have hfits : r < 4 := by simp [Instr.wf] at h; omega
    simp [encode, readInstr, hfits]
  | agstart g k | agclamp g k =>
    have hfits : k < 16 := walkOk_lt h
    simp [encode, readInstr, fieldK, hfits]
  | _ => rfl

theorem usedPart_encode (h : i.wf = true) : i.format.usedPart (encode i) = encode i :=
  (encode_readInstr (opFormat_encode i) (readInstr_encode h)).symm

theorem decode_encode (h : i.wf = true) : decode (encode i) = .ok i :=
  decode_eq_ok_iff.2 ⟨i.format, opFormat_encode i, (usedPart_encode h).symm, readInstr_encode h, h⟩

end

end Sys2Proof

namespace Sys2Proof.Machine

/-- Settles O1: both directions of the round trip. -/
theorem decodeEncodeAgree : Obligations.DecodeEncodeAgree :=
  ⟨fun _ => decode_encode, fun _ _ h => ⟨decode_wf h, encode_of_decode h⟩⟩

end Sys2Proof.Machine

/-! # Legal words

`wordLegal` makes the decoder's two tests on the number of the word: one lemma for the unused bits of each
format (30_encoding.md R103) and one for each kind of field value (R108) say so. -/

namespace Sys2Proof.Machine

/-- The unused bits of a format are 0 (R103), on the number of a word. -/
def unusedClear (n : Nat) : Format → Bool
  | .z => n % 2 ^ 24 == 0
  | .s => n % 2 ^ 10 == 0
  | .p => n % 2 ^ 24 == n / 2 ^ 19 % 4 * 2 ^ 19
  | .ar => n / 2 ^ 21 % 8 == 0 && n % 2 ^ 8 == 0
  | .ab => n / 2 ^ 21 % 8 == 0 && n % 2 ^ 10 == 0
  | .i => n % 2 ^ 24 == n % 2 ^ 8
  | .k => n % 2 ^ 24 == n / 2 ^ 8 % 4 * 2 ^ 8
  | .kp => n % 2 ^ 24 == n / 2 ^ 19 % 4 * 2 ^ 19 + n / 2 ^ 8 % 4 * 2 ^ 8
  | .g => n % 2 ^ 24 == n / 2 ^ 8 % 4 * 2 ^ 8 + n % 16

/-- Formats with many used fields are compared at the unused ones, the others as numbers. -/
theorem eq_usedPart_iff {w : Word} {f : Format} : w = f.usedPart w ↔ unusedClear w.toNat f = true := by
  cases f
  case s | ar | ab =>
    rw [word_eq_iff_fields]
    simp [Format.usedPart, unusedClear, ← BitVec.toNat_inj, toNat_fieldRp, toNat_fieldRa, toNat_fieldSel,
      toNat_fieldImm]
    omega
  all_goals
    rw [← BitVec.toNat_inj]
    simp [Format.usedPart, unusedClear, assembleZ, toNat_assemble, toNat_fieldOp, toNat_fieldCp,
      toNat_fieldSel, toNat_fieldImm, fieldK]
    omega

/-! ## Field values -/

theorem offsetOk_offsetOfField (f : BitVec 4) : offsetOk (offsetOfField f) = offsetBits f.toNat := by
  revert f; decide

theorem wf_sad (rp cp : Plane) (ra ca : Anchor) (dx dy : Int) :
    (Instr.sad rp ra cp ca dx dy).wf = (offsetOk dx && offsetOk dy) := rfl

theorem wf_accrow (cp : Plane) (ca : Anchor) (dx dy : Int) (row : Fin 4) :
    (Instr.accrow cp ca dx dy row).wf = (offsetOk dx && offsetOk dy) := rfl

theorem wf_accblk (cp : Plane) (ca : Anchor) (dx dy : Int) :
    (Instr.accblk cp ca dx dy).wf = (offsetOk dx && offsetOk dy) := rfl

theorem wf_bsad (c : BitVec 2) : (Instr.bsad (planeOfCode c)).wf = (c.toNat == 1 || c.toNat == 2) := by
  revert c; decide

theorem wf_pack (b : BitVec 8) : (Instr.pack b.toNat).wf = (b.toNat != 0) := by
  have hb : b.toNat ≤ 255 := Nat.le_of_lt_succ b.isLt
  simp [Instr.wf, hb, Nat.one_le_iff_ne_zero, bne, beq_eq_decide]

theorem wf_filt (c : BitVec 2) : (Instr.filt c.toNat).wf = (c.toNat != 1) := by
  revert c; decide

theorem wf_afilt (c : BitVec 2) : (Instr.afilt c.toNat).wf = decide (2 ≤ c.toNat) := by
  revert c; decide

theorem wf_ofilt (c p : BitVec 2) :
    (Instr.ofilt c.toNat (planeOfCode p)).wf = (decide (2 ≤ c.toNat) && p.toNat != 3) := by
  revert c p; decide

theorem wf_agstart (g : Geometry) (k : Nat) : (Instr.agstart g k).wf = walkOk g k := rfl

theorem wf_agclamp (g : Geometry) (k : Nat) : (Instr.agclamp g k).wf = walkOk g k := rfl

/-- A walk command is legal when its geometry code names a geometry that takes its index. -/
theorem geometryOfCode_any_walkOk (c : BitVec 2) (k : Nat) :
    ((geometryOfCode c).any fun g => walkOk g k) = wordLegal.walkBits c.toNat k := by
  have hc : c = 0 ∨ c = 1 ∨ c = 2 ∨ c = 3 := by revert c; decide
  rcases hc with rfl | rfl | rfl | rfl <;> simp [geometryOfCode, walkOk, wordLegal.walkBits]

theorem fieldK_eq_mod (w : Word) : fieldK w = w.toNat % 16 := by
  rw [fieldK, toNat_fieldImm]
  omega

/-- A word is legal when its unused bits are 0 and its fields name a well-formed instruction. -/
theorem wordLegal_eq (w : Word) :
    wordLegal w
      = ((opFormat (fieldOp w).toNat).any (unusedClear w.toNat) && (readInstr w).any Instr.wf) := by
  unfold wordLegal
  dsimp only
  split
  case h_31 =>
    have hreserved : opFormat (w.toNat / 2 ^ 24) = none := by simp only [opFormat]
    rw [toNat_fieldOp, hreserved]
    rfl
  all_goals
    rename_i hop
    simp only [opFormat, readInstr, (toNat_fieldOp w).trans hop, Option.any_some, Option.any_map,
      unusedClear, ← toNat_fieldCp, ← toNat_fieldDx, ← toNat_fieldDy, ← toNat_fieldSel,
      ← toNat_fieldImm, ← fieldK_eq_mod, wf_sad, wf_accrow, wf_accblk, offsetOk_offsetOfField, wf_bsad,
      wf_pack, wf_filt, wf_afilt, wf_ofilt, wf_agstart, wf_agclamp, geometryOfCode_any_walkOk,
      Bool.and_assoc]
  -- The operations without operands, which are always well formed.
  all_goals exact (Bool.and_true _).symm

/-- The model's test of R103 and R108 on the bits is the decoder's. -/
theorem decodes_iff_wordLegal (w : Word) : (∃ i, decode w = .ok i) ↔ wordLegal w = true := by
  simp only [wordLegal_eq, Bool.and_eq_true, Option.any_eq_true, decode_eq_ok_iff, ← eq_usedPart_iff]
  constructor
  · rintro ⟨i, f, hf, hw, hr, hwf⟩
    exact ⟨⟨f, hf, hw⟩, i, hr, hwf⟩
  · rintro ⟨⟨f, hf, hw⟩, i, hr, hwf⟩
    exact ⟨i, f, hf, hw, hr, hwf⟩

/-! # Words that are no command -/

/-- A running unit records `ILLEGAL` with the word, and nothing else, for a word that does not decode
(30_encoding.md R101). -/
theorem step_illegal {s : State} {rest : List HostAction} {w : Word}
    (hport : s.port = commandAction w :: rest) (hs : Running s) (hw : ¬ ∃ i, decode w = .ok i) :
    step s = .next ((takeAction s rest).setFlt { fault := true, cause := 1, finfo := w }) := by
  have hrun : Running (takeAction s rest) := running_takeAction hs
  rw [step_write hport, hostWrite_cmd hrun, runWord]
  cases hdec : decode w with
  | ok i => exact absurd ⟨i, hdec⟩ hw
  | error e => rw [takeFault_running hrun]; rfl

/-- No opcode that R107 lists is in the opcode map of R106. -/
theorem opFormat_reservedOp {n : Nat} (h : reservedOp n = true) : opFormat n = none := by
  unfold opFormat
  split
  case h_31 => rfl
  all_goals exact absurd h (by decide)

/-- Settles O2: a reserved opcode has no format, so its word decodes to nothing. -/
theorem reservedOpcodesAreIllegal : Obligations.ReservedOpcodesAreIllegal := by
  intro s rest w hport hs hreserved
  refine step_illegal hport hs fun ⟨i, hdec⟩ => ?_
  obtain ⟨f, hf, -⟩ := decode_eq_ok_iff.1 hdec
  rw [toNat_fieldOp, opFormat_reservedOp hreserved] at hf
  cases hf

/-- Settles O3: the words that decode are the legal ones, and the others are recorded as `ILLEGAL`. -/
theorem legalWordsAreCommands : Obligations.LegalWordsAreCommands := by
  refine ⟨decodes_iff_wordLegal, fun s rest w hport hs hillegal => step_illegal hport hs ?_⟩
  rw [decodes_iff_wordLegal, hillegal]
  exact Bool.false_ne_true

theorem decode_of_encode_eq {w : Word} (i : Instr) (hwf : i.wf = true) (hw : encode i = w) :
    decode w = .ok i := by
  rw [← hw, decode_encode hwf]

/-- Settles O4: each worked word of R113 is the encoding of a well-formed command; the illegal ones fail the
second and the third test of R101. -/
theorem workedWords : Obligations.WorkedWords :=
  ⟨decode_of_encode_eq .rbuild rfl rfl, decode_of_encode_eq (.sad .src .b .src .s 1 0) rfl rfl,
    decode_of_encode_eq (.accrow .src .s 1 0 2) rfl rfl, decode_of_encode_eq (.pack 3) rfl rfl,
    decode_of_encode_eq (.ofilt 3 .prev) rfl rfl, decode_of_encode_eq (.agstart .p2b 5) rfl rfl,
    decode_of_encode_eq .runplane rfl rfl, by decide, by decide⟩

end Sys2Proof.Machine

/-! # The SAD unit and the threshold operations

The SAD unit computes with truncated differences and narrows the sum to its register. Below, its sum is the
block distance (41_sad_threshold.md R130) and fits every register that takes it; each operation then has one
equation for each outcome of its pseudocode (R131 to R137). -/

namespace Sys2Proof.Machine

/-! ## Running an instruction and its reads -/

section
variable {α β : Type} {i : Instr} {s t : State} {e : Cause}

theorem exec_of_ok (h : opOf i s = .ok () t) : exec i s = .next t :=
  (exec_eq i s).trans (command_ok h)

theorem exec_of_error (h : opOf i s = .error e t) : exec i s = .next (takeFault t e (encode i)) :=
  (exec_eq i s).trans (command_error h)

theorem look_bind_ok {f : State → Except Cause α} {g : α → Op β} {a : α} (h : f s = .ok a) :
    (look f >>= g) s = g a s :=
  op_bind_ok (look_ok h)

theorem look_bind_error {f : State → Except Cause α} {g : α → Op β} (h : f s = .error e) :
    (look f >>= g) s = .error e s :=
  op_bind_error (look_error h)

/-- Two reads made as one reading step. -/
theorem look_bind (f : State → Except Cause α) (g : α → State → Except Cause β) :
    look (fun u => f u >>= fun a => g a u) = look f >>= fun a => look (g a) := by
  funext u
  rw [op_bind, op_look, op_look]
  cases f u <;> rfl

theorem look_pure (a : α) : look (fun _ => pure a) = pure a := rfl

end

/-! ## The distance of two blocks -/

theorem absDiff_eq_natAbs (a b : Byte) : absDiff a b = ((a.toNat : Int) - (b.toNat : Int)).natAbs := by
  unfold absDiff
  omega

theorem sad4x4_eq_blockDistance (a b : Block Byte) : sad4x4 a b = blockDistance a b := by
  simp [sad4x4, blockDistance, Fin.sum_univ_four, Quad.sum, Quad.zip, Quad.get, absDiff_eq_natAbs]

theorem blockDistance_le (a b : Block Byte) : blockDistance a b ≤ 4080 :=
  sad4x4_eq_blockDistance a b ▸ sad4x4_le a b

theorem blockDistance_self (b : Block Byte) : blockDistance b b = 0 := by
  simp [blockDistance]

/-- A register of at least 12 bits holds any distance. -/
theorem toNat_ofNat_of_le_4080 {w n : Nat} (hw : 12 ≤ w) (hn : n ≤ 4080) :
    (BitVec.ofNat w n).toNat = n :=
  Nat.mod_eq_of_lt ((Nat.lt_of_le_of_lt hn (by decide)).trans_le (Nat.pow_le_pow_right two_pos hw))

/-! ## SAD -/

section
variable {rp cp : Plane} {ra ca : Anchor} {dx dy : Int} {s : State}

theorem sadOp_ref_error {e : Cause} (hr : candBlk s rp ra 0 0 = .error e) :
    sadOp rp ra cp ca dx dy s = .error e s :=
  look_bind_error hr

theorem sadOp_cand_error {ref : Block Byte} {e : Cause} (hr : candBlk s rp ra 0 0 = .ok ref)
    (hc : candBlk s cp ca dx dy = .error e) : sadOp rp ra cp ca dx dy s = .error e s :=
  (look_bind_ok hr).trans (look_bind_error hc)

end

/-- Settles O22: the two reads in their order, and the sum of the SAD unit. -/
theorem sadComputesTheDistance : Obligations.SadComputesTheDistance := by
  intro rp ra cp ca dx dy s
  refine ⟨fun ref cand hr hc => ?distance, fun e hr => exec_of_error (sadOp_ref_error hr),
    fun ref e hr hc => exec_of_error (sadOp_cand_error hr hc)⟩
  have hn : (BitVec.ofNat 12 (sad4x4 ref cand)).toNat = blockDistance ref cand :=
    (sadr_toNat ref cand).trans (sad4x4_eq_blockDistance ref cand)
  exact ⟨_, exec_of_ok (sadOp_ok hr hc), hn, hn.trans_le (blockDistance_le ref cand), rfl⟩

/-! ## CMP and SSADD -/

/-- The three outcomes of a compare (R132). -/
theorem cmpOp_eq (s : State) :
    cmpOp s =
      if s.dp.sadr.toNat < s.dp.thr.toNat then
        if s.dp.wacc.toNat = 1023 then .error .accovf s
        else .ok () ((s.setMask true).setWacc (s.dp.wacc + 1))
      else .ok () (s.setMask false) := by
  unfold cmpOp
  rw [op_bind_ok (op_get s)]
  by_cases hless : s.dp.sadr.toNat < s.dp.thr.toNat
  · by_cases hfull : s.dp.wacc.toNat = 1023 <;> simp [compareMask, hless, waccMax, hfull]
  · simp [compareMask, hless]

theorem exec_cmp_false {s : State} (h : s.dp.thr.toNat ≤ s.dp.sadr.toNat) :
    exec .cmp s = .next (s.setMask false) :=
  exec_of_ok ((cmpOp_eq s).trans (if_neg h.not_gt))

theorem exec_cmp_true {s : State} (h : s.dp.sadr.toNat < s.dp.thr.toNat) (hw : s.dp.wacc.toNat < 1023) :
    exec .cmp s = .next ((s.setMask true).setWacc (s.dp.wacc + 1)) :=
  exec_of_ok ((cmpOp_eq s).trans ((if_pos h).trans (if_neg hw.ne)))

theorem exec_cmp_full {s : State} (h : s.dp.sadr.toNat < s.dp.thr.toNat) (hw : s.dp.wacc.toNat = 1023) :
    exec .cmp s = .next (takeFault s .accovf (encode .cmp)) :=
  exec_of_error ((cmpOp_eq s).trans ((if_pos h).trans (if_pos hw)))

/-- Settles O23: below 1023 the count does not wrap. -/
theorem cmpComparesAndCounts : Obligations.CmpComparesAndCounts := by
  intro s
  refine ⟨exec_cmp_false, fun hless hw => ⟨_, exec_cmp_true hless hw, rfl, ?count, rfl⟩, exec_cmp_full⟩
  show (s.dp.wacc + 1).toNat = s.dp.wacc.toNat + 1
  exact BitVec.toNat_add_of_lt (y := 1#10) (Nat.add_lt_of_lt_sub hw)

theorem ssaddOp_overflow {s : State} (h : 0xFFFFFFFF < s.dp.ssum.toNat + s.dp.sadr.toNat) :
    ssaddOp s = .error .accovf s := by
  unfold ssaddOp
  rw [op_bind_ok (op_get s), if_pos h]
  rfl

/-- Settles O24: a sum that passes the test fits the register. -/
theorem ssaddAddsTheSad : Obligations.SsaddAddsTheSad := by
  intro s
  refine ⟨fun hfits => ⟨_, exec_of_ok (ssaddOp_ok hfits), ?sum, rfl⟩,
    fun hoverflow => exec_of_error (ssaddOp_overflow hoverflow)⟩
  exact Nat.mod_eq_of_lt (Nat.lt_succ_of_le hfits)

/-! ## BSAD -/

section
variable {cp : Plane} {s : State}

theorem bsadOp_ok {a b : Block Byte} (ha : candBlk s .src .s 0 0 = .ok a)
    (hb : candBlk s cp .s 0 0 = .ok b) :
    bsadOp cp s = .ok () (if cp = .next then s.setDevn (BitVec.ofNat 16 (sad4x4 a b))
      else s.setDevp (BitVec.ofNat 16 (sad4x4 a b))) :=
  (look_bind_ok ha).trans (look_bind_ok hb)

theorem bsadOp_src_error {e : Cause} (ha : candBlk s .src .s 0 0 = .error e) :
    bsadOp cp s = .error e s :=
  look_bind_error ha

theorem bsadOp_frame_error {a : Block Byte} {e : Cause} (ha : candBlk s .src .s 0 0 = .ok a)
    (hb : candBlk s cp .s 0 0 = .error e) : bsadOp cp s = .error e s :=
  (look_bind_ok ha).trans (look_bind_error hb)

end

/-- Settles O25: the plane chooses the register, and the source block is read first. -/
theorem bsadComparesFrames : Obligations.BsadComparesFrames := by
  intro cp s hcp
  refine ⟨fun a b ha hb => ⟨_, exec_of_ok (bsadOp_ok ha hb), ?register⟩,
    fun e ha => exec_of_error (bsadOp_src_error ha),
    fun a e ha hb => exec_of_error (bsadOp_frame_error ha hb)⟩
  have hn : (BitVec.ofNat 16 (sad4x4 a b)).toNat = blockDistance a b := by
    rw [sad4x4_eq_blockDistance, toNat_ofNat_of_le_4080 (by decide) (blockDistance_le a b)]
  obtain rfl | rfl := hcp
  · exact ⟨fun _ => ⟨hn, rfl⟩, nofun⟩
  · exact ⟨nofun, fun _ => ⟨hn, rfl⟩⟩

/-! ## DEVL -/

/-- A source block at an offset from the search anchor (R135). -/
def searchBlk (s : State) (o : Int × Int) : Except Cause (Block Byte) := candBlk s .src .s o.1 o.2

/-- The four reads of `DEVL`, in the order of R135. -/
def devlReads (g : DevGeom) (s : State) : Except Cause (Quad (Block Byte)) := do
  let a1 ← searchBlk s g.a1
  let b1 ← searchBlk s g.b1
  let a2 ← searchBlk s g.a2
  let b2 ← searchBlk s g.b2
  pure ⟨a1, b1, a2, b2⟩

section
variable {s : State} {g : DevGeom}

/-- `DEVL` is its reads and then one register update. -/
theorem devlOp_eq (s : State) :
    devlOp s = (look (devlReads s.plat.devGeom) >>= fun q => modify fun u => u.setDev
      (BitVec.ofNat 16 (min (sad4x4 q.q0 q.q1) (sad4x4 q.q2 q.q3)))) s := by
  unfold devlOp devlReads
  rw [op_bind_ok (op_get s)]
  simp only [look_bind, look_pure, bind_assoc, pure_bind]
  rfl

theorem devlOp_ok {q : Quad (Block Byte)} (h : devlReads s.plat.devGeom s = .ok q) :
    devlOp s = .ok () (s.setDev (BitVec.ofNat 16 (min (sad4x4 q.q0 q.q1) (sad4x4 q.q2 q.q3)))) :=
  (devlOp_eq s).trans (look_bind_ok h)

theorem devlOp_error {e : Cause} (h : devlReads s.plat.devGeom s = .error e) :
    devlOp s = .error e s :=
  (devlOp_eq s).trans (look_bind_error h)

theorem devlReads_ok {a1 b1 a2 b2 : Block Byte} (ha1 : searchBlk s g.a1 = .ok a1)
    (hb1 : searchBlk s g.b1 = .ok b1) (ha2 : searchBlk s g.a2 = .ok a2)
    (hb2 : searchBlk s g.b2 = .ok b2) : devlReads g s = .ok ⟨a1, b1, a2, b2⟩ := by
  simp [devlReads, ha1, hb1, ha2, hb2, bind, Except.bind, pure, Except.pure]

/-- But for the values it gathers, `devlReads` is its four reads one after the other. -/
theorem answers_devlReads :
    answers (devlReads g s) = [g.a1, g.b1, g.a2, g.b2].forM fun o => answers (searchBlk s o) := by
  simp [answers, devlReads, map_bind]

theorem devlReads_first_error {before after : List (Int × Int)} {o : Int × Int} {e : Cause}
    (horder : [g.a1, g.b1, g.a2, g.b2] = before ++ o :: after)
    (hbefore : ∀ q ∈ before, ∃ b, searchBlk s q = .ok b) (ho : searchBlk s o = .error e) :
    devlReads g s = .error e := by
  rw [← answers_error_iff, answers_devlReads, horder]
  exact forM_first_error hbefore ho

end

/-- Settles O26: the four reads in their order, and the smaller sum. -/
theorem devlTakesTheSmallerPair : Obligations.DevlTakesTheSmallerPair := by
  intro s
  refine ⟨fun a1 b1 a2 b2 ha1 hb1 ha2 hb2 => ?smaller, fun before after o e horder hbefore ho =>
    exec_of_error (devlOp_error (devlReads_first_error horder hbefore ho))⟩
  refine ⟨_, exec_of_ok (devlOp_ok (devlReads_ok ha1 hb1 ha2 hb2)), ?_, rfl⟩
  have hle : min (sad4x4 a1 b1) (sad4x4 a2 b2) ≤ 4080 := (min_le_left _ _).trans (sad4x4_le a1 b1)
  rw [State.setDev_dp_dev, toNat_ofNat_of_le_4080 (by decide) hle, sad4x4_eq_blockDistance,
    sad4x4_eq_blockDistance]

/-! ## THRESH -/

/-- Settles O27: the clamped product fits, because `TMAX` does. -/
theorem threshClampsTheProduct : Obligations.ThreshClampsTheProduct := by
  intro s
  have hcap : max 1 (min (s.dp.dev.toNat * s.cfg.lambda.toNat / 2 ^ 10) s.cfg.tmax.toNat)
      ≤ max 1 s.cfg.tmax.toNat := max_le_max le_rfl (min_le_right _ _)
  have hthr : (threshValue s.dp.dev s.cfg.lambda s.cfg.tmax).toNat =
      max 1 (min (s.dp.dev.toNat * s.cfg.lambda.toNat / 2 ^ 10) s.cfg.tmax.toNat) :=
    Nat.mod_eq_of_lt (hcap.trans_lt (max_lt (by decide) s.cfg.tmax.isLt))
  exact ⟨_, exec_of_ok rfl, hthr, (le_max_left _ _).trans_eq hthr.symm, hthr.trans_le hcap, rfl⟩

/-! ## A block against itself -/

/-- Settles O28: the distance is 0, which is below any threshold of at least 1. -/
theorem selfCandidatePasses : Obligations.SelfCandidatePasses := by
  intro p a s hread hthr hw
  obtain ⟨b, hb⟩ := hread
  constructor
  · have hsad := exec_of_ok (i := .sad p a p a 0 0) (sadOp_ok hb hb)
    rwa [sad4x4_eq_blockDistance, blockDistance_self] at hsad
  · exact exec_cmp_true (s := s.setSadr 0) hthr hw

end Sys2Proof.Machine

/-! # The masked accumulator

`ACCROW` and `ACCBLK` are one operation with two reads: nothing under a clear mask, else the read, the test of
every sum and then the addition (42_masked_accumulator.md R150 to R153). Its outcomes are said once, for any
read; a block is then shown to fit, and to be added, row by row. -/

namespace Sys2Proof.Machine

/-! ## Commands that leave no fault -/

theorem takeFault_fault (s : State) (c : Cause) (w : Word) : (takeFault s c w).flt.fault = true := by
  cases h : s.flt.fault with
  | false => rw [takeFault_flt h]
  | true => rw [takeFault_faulted h, h]

/-- An instruction after which no fault is recorded ran its pseudocode to the end. -/
theorem opOf_ok_of_running {i : Instr} {s t : State} (h : exec i s = .next t) (ht : Running t) :
    opOf i s = .ok () t := by
  obtain hop | ⟨c, u, -, rfl⟩ := command_next ((exec_eq i s).symm.trans h)
  · exact hop
  · exact absurd ht (by simp [Running, takeFault_fault])

/-! ## Reading and adding under the mask -/

section
variable {α : Type}

/-- Under the mask, a read and then an addition to the lanes that have room for what was read. -/
def maskedAdd (read : State → Except Cause α) (fits : Block Half → α → Bool)
    (add : Block Half → α → Block Half) : Op Unit := do
  if (← get).dp.mask then
    let v ← look read
    let s ← get
    if fits s.dp.acc v then set (s.setAcc (add s.dp.acc v)) else raise .accovf

variable {read : State → Except Cause α} {fits : Block Half → α → Bool}
  {add : Block Half → α → Block Half} {s t : State}

/-- The four outcomes of a masked addition. -/
theorem maskedAdd_eq (s : State) :
    maskedAdd read fits add s =
      if s.dp.mask then
        match read s with
        | .ok v =>
          if fits s.dp.acc v then .ok () (s.setAcc (add s.dp.acc v)) else .error .accovf s
        | .error e => .error e s
      else .ok () s := by
  unfold maskedAdd
  rw [op_bind_ok (op_get s)]
  cases s.dp.mask with
  | false => rfl
  | true =>
    cases hread : read s with
    | error e => exact look_bind_error hread
    | ok v =>
      refine (look_bind_ok hread).trans ?_
      rw [op_bind_ok (op_get s)]
      by_cases hfits : fits s.dp.acc v = true <;> simp [hfits]

/-! An instruction whose pseudocode is such an addition. -/

variable {i : Instr} (hop : opOf i = maskedAdd read fits add)
include hop

theorem exec_maskedAdd_clear (hmask : s.dp.mask = false) : exec i s = .next s :=
  exec_of_ok (by simp [hop, maskedAdd_eq, hmask])

theorem exec_maskedAdd_read_error {e : Cause} (hmask : s.dp.mask = true) (hread : read s = .error e) :
    exec i s = .next (takeFault s e (encode i)) :=
  exec_of_error (by simp [hop, maskedAdd_eq, hmask, hread])

theorem exec_maskedAdd_ok {v : α} (hmask : s.dp.mask = true) (hread : read s = .ok v)
    (hfits : fits s.dp.acc v = true) : exec i s = .next (s.setAcc (add s.dp.acc v)) :=
  exec_of_ok (by simp [hop, maskedAdd_eq, hmask, hread, hfits])

theorem exec_maskedAdd_overflow {v : α} (hmask : s.dp.mask = true) (hread : read s = .ok v)
    (hfits : fits s.dp.acc v = false) : exec i s = .next (takeFault s .accovf (encode i)) :=
  exec_of_error (by simp [hop, maskedAdd_eq, hmask, hread, hfits])

/-- What an addition went through that leaves no fault recorded. -/
theorem exec_maskedAdd_inv (hexec : exec i s = .next t) (ht : Running t) :
    (s.dp.mask = false ∧ t = s) ∨
      ∃ v, s.dp.mask = true ∧ read s = .ok v ∧ fits s.dp.acc v = true ∧
        t = s.setAcc (add s.dp.acc v) := by
  have hrun := opOf_ok_of_running hexec ht
  rw [hop, maskedAdd_eq] at hrun
  split at hrun
  case isFalse hmask =>
    cases hrun
    exact .inl ⟨Bool.eq_false_of_not_eq_true hmask, rfl⟩
  case isTrue hmask =>
    split at hrun
    next v hread =>
      split at hrun
      case isTrue hfits =>
        cases hrun
        exact .inr ⟨v, hmask, hread, hfits, rfl⟩
      case isFalse => cases hrun
    next => cases hrun

end

/-! ## Rows of lanes -/

theorem rowFits_iff (a : Quad Half) (v : Quad Byte) :
    rowFits a v = true ↔ ∀ c, (a.get c).toNat + (v.get c).toNat ≤ accMax := by
  simp [rowFits, laneFits, Quad.all_iff]

theorem blkFits_iff_rows (a : Block Half) (b : Block Byte) :
    blkFits a b = true ↔ ∀ r, rowFits (a.get r) (b.get r) = true := by
  simp only [blkFits_iff, rowFits_iff]

theorem rowFits_eq_false {a : Quad Half} {v : Quad Byte} {c : Fin 4}
    (h : accMax < (a.get c).toNat + (v.get c).toNat) : rowFits a v = false :=
  Bool.eq_false_of_not_eq_true fun hfits => h.not_ge ((rowFits_iff a v).1 hfits c)

theorem blkFits_eq_false {a : Block Half} {b : Block Byte} {r c : Fin 4}
    (h : accMax < ((a.get r).get c).toNat + ((b.get r).get c).toNat) : blkFits a b = false :=
  Bool.eq_false_of_not_eq_true fun hfits => h.not_ge ((blkFits_iff a b).1 hfits r c)

theorem rowAdd_toNat {a : Quad Half} {v : Quad Byte} (h : rowFits a v = true) (c : Fin 4) :
    ((rowAdd a v).get c).toNat = (a.get c).toNat + (v.get c).toNat := by
  rw [rowAdd, Quad.get_zip, laneAdd_toNat ((rowFits_iff a v).1 h c)]

/-- The lanes with a candidate row added to one of their rows. -/
def addRow (row : Fin 4) (a : Block Half) (v : Quad Byte) : Block Half :=
  a.set row (rowAdd (a.get row) v)

theorem addRow_get_of_ne {row r : Fin 4} (h : r ≠ row) (a : Block Half) (v : Quad Byte) :
    (addRow row a v).get r = a.get r := by
  rw [addRow, Quad.get_set, if_neg h]

theorem addRow_toNat {row : Fin 4} {a : Block Half} {v : Quad Byte} (h : rowFits (a.get row) v = true)
    (r c : Fin 4) :
    (((addRow row a v).get r).get c).toNat =
      ((a.get r).get c).toNat + if r = row then (v.get c).toNat else 0 := by
  by_cases hr : r = row
  · subst hr
    rw [addRow, Quad.get_set, if_pos rfl, if_pos rfl, rowAdd_toNat h]
  · rw [addRow_get_of_ne hr, if_neg hr, Nat.add_zero]

/-! ## ACCROW and ACCBLK -/

/-- The row of the candidate block that `ACCROW` reads (R152). -/
def candRow (s : State) (cp : Plane) (ca : Anchor) (dx dy : Int) (row : Fin 4) :
    Except Cause (Quad Byte) :=
  pxRow s cp ((anchorPos s ca).1 + dx) ((anchorPos s ca).2 + dy + row.val)

/-- `ACCROW` reads the rows of the block that `ACCBLK` reads. -/
theorem candRow_of_candBlk {s : State} {cp : Plane} {ca : Anchor} {dx dy : Int} {b : Block Byte}
    (h : candBlk s cp ca dx dy = .ok b) (row : Fin 4) :
    candRow s cp ca dx dy row = .ok (b.get row) := by
  obtain ⟨h0, h1, h2, h3⟩ := (blk_ok_iff _ _ _ _ _).1 h
  match row with
  | 0 => exact (congrArg _ (Int.add_zero _)).trans h0
  | 1 => exact h1
  | 2 => exact h2
  | 3 => exact h3

theorem opOf_accrow (cp : Plane) (ca : Anchor) (dx dy : Int) (row : Fin 4) :
    opOf (.accrow cp ca dx dy row) =
      maskedAdd (fun s => candRow s cp ca dx dy row) (fun a v => rowFits (a.get row) v) (addRow row) :=
  rfl

theorem opOf_accblk (cp : Plane) (ca : Anchor) (dx dy : Int) :
    opOf (.accblk cp ca dx dy) = maskedAdd (fun s => candBlk s cp ca dx dy) blkFits blkAdd := rfl

/-- Settles O29: the four outcomes of the masked addition of a row. -/
theorem accrowAddsARow : Obligations.AccrowAddsARow := by
  intro cp ca dx dy row s
  have hop := opOf_accrow cp ca dx dy row
  refine ⟨exec_maskedAdd_clear hop, fun v hmask hread hfit => ?grows,
    fun v c hmask hread hover => exec_maskedAdd_overflow hop hmask hread (rowFits_eq_false hover),
    fun e => exec_maskedAdd_read_error hop⟩
  have hfits : rowFits (s.dp.acc.get row) v = true := (rowFits_iff _ v).2 hfit
  exact ⟨_, exec_maskedAdd_ok hop hmask hread hfits, addRow_toNat hfits, rfl⟩

/-- Settles O30: the four outcomes of the masked addition of a block. -/
theorem accblkAddsABlock : Obligations.AccblkAddsABlock := by
  intro cp ca dx dy s
  have hop := opOf_accblk cp ca dx dy
  refine ⟨exec_maskedAdd_clear hop, fun b hmask hread hfit => ?grows,
    fun b r c hmask hread hover => exec_maskedAdd_overflow hop hmask hread (blkFits_eq_false hover),
    fun e => exec_maskedAdd_read_error hop⟩
  have hfits : blkFits s.dp.acc b = true := (blkFits_iff _ b).2 hfit
  exact ⟨_, exec_maskedAdd_ok hop hmask hread hfits, blkAdd_toNat hfits, rfl⟩

/-! ## A block as four rows -/

theorem execSeq_cons_next {i : Instr} {rest : List Instr} {s t : State} (hs : Running s)
    (h : exec i s = .next t) : execSeq (i :: rest) s = execSeq rest t := by
  simp [execSeq, hs, h]

section
variable {cp : Plane} {ca : Anchor} {dx dy : Int} {b : Block Byte} {s : State}

theorem execSeq_accrow_clear (hs : Running s) (hmask : s.dp.mask = false) (rows : List (Fin 4)) :
    execSeq (rows.map fun row => .accrow cp ca dx dy row) s = s := by
  induction rows with
  | nil => rfl
  | cons row rows ih => exact (execSeq_cons_next hs (exec_maskedAdd_clear (opOf_accrow ..) hmask)).trans ih

/-- Adding to the lanes changes nothing that a candidate block is read from. -/
theorem candBlk_setAcc (a : Block Half) : candBlk (s.setAcc a) cp ca dx dy = candBlk s cp ca dx dy :=
  candBlk_congr rfl rfl rfl rfl cp ca dx dy

/-- Different rows of a readable block are added one after the other, each where its lanes have room: a row
meets its lanes as they were before the first. -/
theorem execSeq_accrow_rows {rows : List (Fin 4)} (hrows : rows.Nodup) (hs : Running s)
    (hmask : s.dp.mask = true) (hread : candBlk s cp ca dx dy = .ok b)
    (hfits : ∀ row ∈ rows, rowFits (s.dp.acc.get row) (b.get row) = true) :
    execSeq (rows.map fun row => .accrow cp ca dx dy row) s =
      s.setAcc (rows.foldl (fun a row => addRow row a (b.get row)) s.dp.acc) := by
  induction rows generalizing s with
  | nil => rfl
  | cons row rows ih =>
    obtain ⟨hnew, hrest⟩ := List.nodup_cons.1 hrows
    obtain ⟨hfit, hfitrest⟩ := List.forall_mem_cons.1 hfits
    have hfirst := exec_maskedAdd_ok (opOf_accrow ..) hmask (candRow_of_candBlk hread row) hfit
    refine (execSeq_cons_next hs hfirst).trans
      (ih hrest hs hmask ((candBlk_setAcc _).trans hread) fun r hr => ?_)
    have hne : r ≠ row := fun heq => hnew (heq ▸ hr)
    rw [State.setAcc_dp_acc, addRow_get_of_ne hne]
    exact hfitrest r hr

theorem foldl_addRow_eq_blkAdd (a : Block Half) (b : Block Byte) :
    [0, 1, 2, 3].foldl (fun a row => addRow row a (b.get row)) a = blkAdd a b := rfl

end

/-- Settles O31: a block that fits does so row by row, and its four rows together are the block. -/
theorem fourRowsMakeABlock : Obligations.FourRowsMakeABlock := by
  intro cp ca dx dy s t hexec ht
  obtain ⟨hmask, rfl⟩ | ⟨b, hmask, hread, hfits, rfl⟩ :=
    exec_maskedAdd_inv (opOf_accblk cp ca dx dy) hexec ht
  · exact execSeq_accrow_clear ht hmask [0, 1, 2, 3]
  · have hs : Running s := ht
    have hrows := execSeq_accrow_rows (rows := [0, 1, 2, 3]) (by decide) hs hmask hread
      fun row _ => (blkFits_iff_rows _ b).1 hfits row
    rwa [foldl_addRow_eq_blkAdd] at hrows

end Sys2Proof.Machine

/-! # The arithmetic of the write-back

The datapath computes on naturals and narrows to a byte; the statements speak of integers. Below, the two
agree (43_recip_blend.md R161 to R167), the halves of the weight word share out 32768 (R166), and n equal
candidates come back as their common value (R169). -/

namespace Sys2Proof.Machine

/-! ## The computed values -/

theorem sat8_toInt (v : Int) : ((sat8 v).toNat : Int) = min 255 (max 0 v) := by
  unfold sat8
  rw [BitVec.toNat_ofNat]
  omega

theorem sat8_eq {v : Int} {b : Byte} (h : v = b.toNat) : sat8 v = b := by
  have hb := b.isLt
  have hsat := sat8_toInt v
  exact BitVec.eq_of_toNat_eq (by omega)

theorem storeval_toNat (a q : Nat) : (storeval a q).toNat = storeResult a q := by
  have hsat := sat8_toInt ((a * q / 2 ^ 14 + 1) / 2 : Nat)
  unfold storeval storeResult
  omega

theorem wwLo_eq_weightLo (ww : Word) : (wwLo ww : Int) = weightLo ww := by
  simp [wwLo, weightLo, BitVec.extractLsb'_toNat]

theorem wwHi_eq_weightHi (ww : Word) : wwHi ww = weightHi ww := by
  have hww := ww.isLt
  have hhalf : ww.toNat >>> 16 % 2 ^ 16 = ww.toNat / 2 ^ 16 := by
    rw [Nat.shiftRight_eq_div_pow]
    omega
  unfold wwHi weightHi
  rw [BitVec.toInt_eq_toNat_cond, BitVec.extractLsb'_toNat, hhalf]
  split <;> split <;> omega

theorem blendExisting_eq (e : Byte) (ww : Word) : blendExisting e (wwHi ww) = scaledExisting e ww := by
  rw [blendExisting, scaledExisting, wwHi_eq_weightHi]

theorem blendval_toInt (e : Byte) (a q : Nat) (ww : Word) :
    ((blendval e a q (wwHi ww) (wwLo ww)).toNat : Int) = blendResult e a q ww := by
  rw [blendval, sat8_toInt, blendExisting_eq]
  simp [blendResult, blendMul, wwLo_eq_weightLo]

theorem residTerm_eq (diffPack : Bool) (out e : Byte) (ww : Word) :
    residTerm diffPack out e (wwHi ww) =
      ((out.toNat : Int) - if diffPack then min 255 (max 0 (scaledExisting e ww))
        else scaledExisting e ww).natAbs := by
  cases diffPack with
  | false => simp [residTerm, blendExisting_eq]
  | true => simp [residTerm, absDiff_eq_natAbs, sat8_toInt, blendExisting_eq]

/-! ## The weight word -/

/-- Rounding half up is off by at most half a unit. -/
theorem roundDiv_bounds (p : Nat) {q : Nat} (hq : 0 < q) :
    2 * q * roundDiv p q ≤ 2 * p + q ∧ 2 * p + q < 2 * q * roundDiv p q + 2 * q :=
  ⟨Nat.mul_div_le _ _, Nat.lt_mul_div_succ _ (Nat.mul_pos two_pos hq)⟩

/-- `32768 / d` lies halfway between two integers for no `d` below `2 ^ 16`: twice it would be an odd divisor
of a power of two. -/
theorem not_halfway {d x : Nat} (hd : d < 2 ^ 16) : 2 * d * x ≠ 2 ^ 16 + d := by
  intro h
  obtain ⟨y, rfl⟩ : ∃ y, x = y + 1 := Nat.exists_eq_succ_of_ne_zero (by rintro rfl; omega)
  have hmul : d * (2 * y + 1) = 2 ^ 16 := by linarith
  have hodd : Nat.Coprime (2 * y + 1) (2 ^ 16) := Nat.Coprime.pow_right 16 (by simp)
  have hone : 2 * y + 1 = 1 := hodd.eq_one_of_dvd (Dvd.intro_left d hmul)
  rw [hone, Nat.mul_one] at hmul
  exact hd.ne hmul

/-- The two ratios of the blend add up to one (R166): only a tie could round both of them up. -/
theorem ratios_sum {alpha : Nat} (h : alpha ≤ 255) :
    roundDiv 32768 (alpha + 1) + roundDiv (alpha * 32768) (alpha + 1) = 32768 := by
  obtain ⟨hlo, hlo'⟩ := roundDiv_bounds 32768 alpha.succ_pos
  obtain ⟨hhi, hhi'⟩ := roundDiv_bounds (alpha * 32768) alpha.succ_pos
  have htie := not_halfway (d := alpha + 1) (x := roundDiv 32768 (alpha + 1)) (by omega)
  generalize roundDiv 32768 (alpha + 1) = lo at *
  generalize roundDiv (alpha * 32768) (alpha + 1) = hi at *
  have habove : 32767 < lo + hi := by
    by_contra hle
    have := Nat.mul_le_mul_left (2 * (alpha + 1)) (Nat.le_of_not_lt hle)
    linarith
  have hbelow : lo + hi < 32769 := by
    by_contra hge
    have := Nat.mul_le_mul_left (2 * (alpha + 1)) (Nat.le_of_not_lt hge)
    exact htie (le_antisymm (by linarith) (by linarith))
  omega

/-- The ratio of the new contribution is between 128 / 32768 and one half (R166). -/
theorem ratio_bounds {alpha : Nat} (h1 : 1 ≤ alpha) (h2 : alpha ≤ 255) :
    1 ≤ roundDiv 32768 (alpha + 1) ∧ roundDiv 32768 (alpha + 1) ≤ 16384 := by
  unfold roundDiv
  constructor
  · exact (Nat.one_le_div_iff (by omega)).2 (by omega)
  · exact Nat.lt_succ_iff.1 ((Nat.div_lt_iff_lt_mul (by omega)).2 (by omega))

theorem packWord_toNat {alpha : Nat} (h1 : 1 ≤ alpha) (h2 : alpha ≤ 255) :
    (packWord alpha).toNat =
      roundDiv (alpha * 32768) (alpha + 1) * 2 ^ 16 + roundDiv 32768 (alpha + 1) := by
  have hsum := ratios_sum h2
  have hlo := ratio_bounds h1 h2
  exact Nat.mod_eq_of_lt (by omega)

/-- Settles O37: the ratios add up to 32768, so each of them fits its half. -/
theorem packBuildsTheWeightWord : Obligations.PackBuildsTheWeightWord := by
  intro alpha s h1 h2
  have hww := packWord_toNat h1 h2
  have hsum := ratios_sum h2
  obtain ⟨-, hhalf⟩ := ratio_bounds h1 h2
  have hlo : (packWord alpha).toNat % 2 ^ 16 = roundDiv 32768 (alpha + 1) := by omega
  have hhi : (packWord alpha).toNat / 2 ^ 16 = roundDiv (alpha * 32768) (alpha + 1) := by omega
  refine ⟨s.setWw (packWord alpha), exec_of_ok rfl, hlo, hhi.trans ?_, ?_, rfl⟩
  · unfold roundDiv
    congr 1
    omega
  · exact (congrArg₂ _ hlo hhi).trans hsum

/-! ## Equal candidates -/

/-- The table's reciprocal of a small count is that of 32768 to within half the count. -/
theorem recipEntry_near {n : Nat} (h1 : 1 ≤ n) (h2 : n ≤ 49) :
    32743 ≤ n * (recipEntry n).toNat ∧ n * (recipEntry n).toNat ≤ 32793 := by
  by_cases hone : n = 1
  · subst hone
    decide
  · obtain ⟨hle, hlt⟩ := roundDiv_bounds 32768 h1
    have hfit : roundDiv 32768 n < 2 ^ 16 := (Nat.div_lt_iff_lt_mul (by omega)).2 (by omega)
    have hentry : (recipEntry n).toNat = roundDiv 32768 n := by
      rw [recipEntry, if_neg (by omega), if_neg hone]
      exact Nat.mod_eq_of_lt hfit
    rw [hentry]
    constructor <;> linarith

theorem storeval_uniform {n : Nat} (v : Byte) (h1 : 1 ≤ n) (h2 : n ≤ 49) :
    storeval (n * v.toNat) (recipEntry n).toNat = v := by
  obtain ⟨hlo, hhi⟩ := recipEntry_near h1 h2
  have hv := v.isLt
  have hprod : n * v.toNat * (recipEntry n).toNat = v.toNat * (n * (recipEntry n).toNat) := by ring
  have hle := Nat.mul_le_mul_left v.toNat hlo
  have hge := Nat.mul_le_mul_left v.toNat hhi
  rw [storeval, hprod]
  exact sat8_eq (by omega)

/-- The rounded product of reciprocal and ratio, times the count, is the ratio to within 37. -/
theorem blendMul_near {n lo : Nat} (h1 : 1 ≤ n) (h2 : n ≤ 49) (hlo : lo ≤ 16384) :
    lo ≤ n * blendMul (recipEntry n).toNat lo + 37 ∧ n * blendMul (recipEntry n).toNat lo ≤ lo + 37 := by
  obtain ⟨hq, hq'⟩ := recipEntry_near h1 h2
  generalize (recipEntry n).toNat = q at *
  have hmul : 2 ^ 15 * blendMul q lo ≤ q * lo + 16384 := Nat.mul_div_le _ _
  have hmul' : q * lo + 16384 < 2 ^ 15 * (blendMul q lo + 1) := Nat.lt_mul_div_succ _ (by decide)
  generalize blendMul q lo = m at *
  have hn := Nat.mul_le_mul_left n hmul
  have hn' := Nat.mul_le_mul_left n hmul'.le
  have hqlo := Nat.mul_le_mul_right lo hq
  have hqlo' := Nat.mul_le_mul_right lo hq'
  constructor <;> linarith

theorem blendval_uniform {n alpha : Nat} (v : Byte) (h1 : 1 ≤ n) (h2 : n ≤ 49) (ha1 : 1 ≤ alpha)
    (ha2 : alpha ≤ 255) :
    blendval v (n * v.toNat) (recipEntry n).toNat (wwHi (packWord alpha)) (wwLo (packWord alpha)) = v := by
  have hww := packWord_toNat ha1 ha2
  have hsum := ratios_sum ha2
  obtain ⟨hpos, hhalf⟩ := ratio_bounds ha1 ha2
  generalize roundDiv 32768 (alpha + 1) = lo at *
  generalize roundDiv (alpha * 32768) (alpha + 1) = hi at *
  have hwwLo : wwLo (packWord alpha) = lo := by
    have := wwLo_eq_weightLo (packWord alpha)
    unfold weightLo at this
    omega
  have hwwHi : wwHi (packWord alpha) = hi := by
    rw [wwHi_eq_weightHi, weightHi, if_pos (by omega)]
    omega
  obtain ⟨hle, hge⟩ := blendMul_near h1 h2 hhalf
  have hv := v.isLt
  rw [hwwLo, hwwHi, blendval, blendExisting]
  generalize blendMul (recipEntry n).toNat lo = m at *
  have hprod : n * v.toNat * m = v.toNat * (n * m) := by ring
  have hnear := Nat.mul_le_mul_left v.toNat (show 32731 ≤ hi + n * m by omega)
  have hnear' := Nat.mul_le_mul_left v.toNat (show hi + n * m ≤ 32805 by omega)
  rw [Nat.mul_add] at hnear hnear'
  rw [hprod]
  refine sat8_eq ?_
  have hcast : (v.toNat : Int) * (hi : Int) = (v.toNat * hi : Nat) := by push_cast; rfl
  rw [hcast]
  omega

/-- Settles O38: the rounding errors of reciprocal and ratio are below half a unit of the result. -/
theorem uniformInputIsExact : Obligations.UniformInputIsExact :=
  fun _ v h1 h2 => ⟨storeval_uniform v h1 h2, fun _ ha1 ha2 => blendval_uniform v h1 h2 ha1 ha2⟩

end Sys2Proof.Machine

/-! # The write-back of a block

`STORE`, `BLEND` and `DIFF` are one run over the sixteen lanes, in which each lane replaces the byte at its own
address by one computed from it. What such a run leaves in memory is said once (`eachLane_lanes_ok`); the three
operations differ in the byte and in the term that a lane answers (43_recip_blend.md R160 to R167). -/

namespace Sys2Proof.Machine

/-! ## The addresses of the lanes -/

/-- A position in rows of `n` is its row and its column. -/
theorem raster_injective {n a b a' b' : Nat} (hb : b < n) (hb' : b' < n) (h : a * n + b = a' * n + b') :
    a = a' ∧ b = b' := by
  have hn : 0 < n := hb.pos
  have hdiv := congrArg (· / n) h
  have hmod := congrArg (· % n) h
  simp only [Nat.mul_add_mod', Nat.mod_eq_of_lt hb, Nat.mod_eq_of_lt hb'] at hmod
  simp only [Nat.mul_comm _ n, Nat.mul_add_div hn, Nat.div_eq_of_lt hb, Nat.div_eq_of_lt hb'] at hdiv
  exact ⟨hdiv, hmod⟩

section
variable {s : State}

theorem laneAddr_eq {r c : Fin 4}
    (h : sampleOk s .dst (baseLane s r c).1 (baseLane s r c).2 = true) :
    laneAddr s r c = .ok (laneIndex s r c) := by
  simp only [sampleOk, Bool.and_eq_true, decide_eq_true_eq] at h
  obtain ⟨⟨hin, hle⟩, -⟩ := h
  exact (sampleAddr_ok_iff _ _ _ _ _).2 ⟨hin, hle, rfl⟩

theorem mem_lanes (l : Fin 4 × Fin 4) : l ∈ lanes := by
  obtain ⟨r, c⟩ := l
  revert r c
  decide

theorem sampleOk_of_baseMapped (h : baseMapped s = true) (r c : Fin 4) :
    sampleOk s .dst (baseLane s r c).1 (baseLane s r c).2 = true :=
  List.all_eq_true.1 h (r, c) (mem_lanes _)

/-- Where the base block is mapped, a lane's byte is the one at its address. -/
theorem laneByte_eq (h : baseMapped s = true) (m : Memory) (r c : Fin 4) :
    laneByte (s.setMem m) r c = (s.setMem m).byteAt (laneIndex s r c) := by
  have haddr : laneAddr (s.setMem m) r c = .ok (laneIndex s r c) :=
    laneAddr_eq (sampleOk_of_baseMapped h r c)
  rw [laneByte, haddr]

/-- With a destination stride of at least 4, no two lanes share a byte. -/
theorem laneIndex_injective (h : 4 ≤ s.cfg.dstStride.toNat) :
    Function.Injective fun l : Fin 4 × Fin 4 => laneIndex s l.1 l.2 := by
  rintro ⟨r, c⟩ ⟨r', c'⟩ heq
  simp only [laneIndex, linearAddr, baseLane, planeStride, Int.toNat_natCast, Nat.add_mul] at heq
  obtain ⟨hr, hc⟩ := raster_injective (n := s.cfg.dstStride.toNat) (c.isLt.trans_le h)
    (c'.isLt.trans_le h) (a := r) (a' := r') (by omega)
  exact Prod.ext (Fin.ext hr) (Fin.ext hc)

end

/-! ## A run over the lanes -/

section
variable {s : State} {f : Fin 4 → Fin 4 → Op Nat} {out : Fin 4 → Fin 4 → Byte → Byte}
  {term : Fin 4 → Fin 4 → Byte → Nat}

/-- A lane operation that, with the registers of `s`, puts `out` of the byte at the lane's address there and
answers `term` of that byte. -/
def LaneWrites (s : State) (f : Fin 4 → Fin 4 → Op Nat) (out : Fin 4 → Fin 4 → Byte → Byte)
    (term : Fin 4 → Fin 4 → Byte → Nat) : Prop :=
  ∀ r c m, sampleOk s .dst (baseLane s r c).1 (baseLane s r c).2 = true →
    let e := (s.setMem m).byteAt (laneIndex s r c)
    f r c (s.setMem m) = .ok (term r c e) (s.setMem (memPut m (laneIndex s r c) (out r c e)))

theorem laneWrites_storeLane (s : State) (q : Nat) :
    LaneWrites s (storeLane q) (fun r c _ => storeval ((s.dp.acc.get r).get c).toNat q) fun _ _ _ => 0 :=
  fun _ _ m h => storeLane_ok (s := s.setMem m) h

theorem laneWrites_blendLane (s : State) (q : Nat) :
    LaneWrites s (blendLane q)
      (fun r c e => blendval e ((s.dp.acc.get r).get c).toNat q (wwHi s.dp.ww) (wwLo s.dp.ww))
      fun r c e => residTerm s.plat.diffPack
        (blendval e ((s.dp.acc.get r).get c).toNat q (wwHi s.dp.ww) (wwLo s.dp.ww)) e (wwHi s.dp.ww) :=
  fun _ _ m h => blendLane_ok (s := s.setMem m) h

/-- No two of the lanes `ls` share a byte. -/
def LanesApart (s : State) (ls : List (Fin 4 × Fin 4)) : Prop :=
  ls.Pairwise fun k l => laneIndex s k.1 k.2 ≠ laneIndex s l.1 l.2

theorem lanesApart_lanes (h : 4 ≤ s.cfg.dstStride.toNat) : LanesApart s lanes :=
  List.Pairwise.imp (fun hne heq => hne (laneIndex_injective h heq)) (show lanes.Nodup by decide)

/-- What a run over the lanes `ls` answers and leaves in memory. Its values are those of the bytes before the
run, unless lanes share bytes (log entry 10). -/
structure LanesRun (s : State) (out : Fin 4 → Fin 4 → Byte → Byte) (term : Fin 4 → Fin 4 → Byte → Nat)
    (ls : List (Fin 4 × Fin 4)) (m m' : Memory) (n : Nat) : Prop where
  outside : ∀ a, (∀ l ∈ ls, laneIndex s l.1 l.2 ≠ a) → (s.setMem m').byteAt a = (s.setMem m).byteAt a
  written : LanesApart s ls → ∀ l ∈ ls, (s.setMem m').byteAt (laneIndex s l.1 l.2) =
    out l.1 l.2 ((s.setMem m).byteAt (laneIndex s l.1 l.2))
  total : LanesApart s ls →
    n = (ls.map fun l => term l.1 l.2 ((s.setMem m).byteAt (laneIndex s l.1 l.2))).sum

theorem lanesRun_nil (m : Memory) : LanesRun s out term [] m m 0 :=
  ⟨fun _ _ => rfl, nofun, fun _ => rfl⟩

/-- A lane that shares no byte with the later ones is not written again, and they find their bytes as they
were before it. -/
theorem lanesRun_cons {l : Fin 4 × Fin 4} {ls : List (Fin 4 × Fin 4)} {m m' : Memory} {n : Nat}
    (h : LanesRun s out term ls (memPut m (laneIndex s l.1 l.2)
      (out l.1 l.2 ((s.setMem m).byteAt (laneIndex s l.1 l.2)))) m' n) :
    LanesRun s out term (l :: ls) m m' (term l.1 l.2 ((s.setMem m).byteAt (laneIndex s l.1 l.2)) + n) := by
  have hkept : ∀ v a, laneIndex s l.1 l.2 ≠ a →
      (s.setMem (memPut m (laneIndex s l.1 l.2) v)).byteAt a = (s.setMem m).byteAt a :=
    fun v a hne => byteAt_memPut_other (s.setMem m) _ a v hne.symm
  refine ⟨fun a ha => ?outside, fun hapart => ?written, fun hapart => ?total⟩
  case outside =>
    obtain ⟨hne, hrest⟩ := List.forall_mem_cons.1 ha
    rw [h.outside a hrest, hkept _ a hne]
  case written =>
    obtain ⟨hl, hls⟩ := List.pairwise_cons.1 hapart
    refine List.forall_mem_cons.2 ⟨?_, fun k hk => ?_⟩
    · exact (h.outside _ fun k hk => (hl k hk).symm).trans (byteAt_memPut_same (s.setMem m) _ _)
    · rw [h.written hls k hk, hkept _ _ (hl k hk)]
  case total =>
    obtain ⟨hl, hls⟩ := List.pairwise_cons.1 hapart
    rw [h.total hls, List.map_cons, List.sum_cons]
    exact congrArg _ (congrArg _ (List.map_congr_left fun k hk => by rw [hkept _ _ (hl k hk)]))

theorem eachLane_ok (hf : LaneWrites s f out term) {ls : List (Fin 4 × Fin 4)}
    (hls : ∀ l ∈ ls, sampleOk s .dst (baseLane s l.1 l.2).1 (baseLane s l.1 l.2).2 = true) (m : Memory) :
    ∃ m' n, eachLane f ls (s.setMem m) = .ok n (s.setMem m') ∧ LanesRun s out term ls m m' n := by
  induction ls generalizing m with
  | nil => exact ⟨m, 0, rfl, lanesRun_nil m⟩
  | cons l ls ih =>
    obtain ⟨hl, hrest⟩ := List.forall_mem_cons.1 hls
    obtain ⟨m', n, hrun, hleaves⟩ := ih hrest _
    exact ⟨m', _, (eachLane_cons_ok (hf l.1 l.2 m hl)).trans (by rw [hrun]), lanesRun_cons hleaves⟩

/-- A run over the whole base block: each lane's byte is replaced, and the terms are added up. -/
theorem eachLane_lanes_ok (hf : LaneWrites s f out term) (hmap : baseMapped s = true) :
    ∃ m n, eachLane f lanes s = .ok n (s.setMem m) ∧
      WritesBlock s (s.setMem m) (fun r c => ((out r c (laneByte s r c)).toNat : Int)) ∧
      (4 ≤ s.cfg.dstStride.toNat → n = ∑ r : Fin 4, ∑ c : Fin 4, term r c (laneByte s r c)) := by
  obtain ⟨m, n, hrun, hleaves⟩ :=
    eachLane_ok hf (fun l _ => sampleOk_of_baseMapped hmap l.1 l.2) s.mem
  have hbyte : ∀ r c, laneByte s r c = (s.setMem s.mem).byteAt (laneIndex s r c) :=
    laneByte_eq hmap s.mem
  refine ⟨m, n, hrun, ⟨fun hstride r c => ?values, fun a ha => hleaves.outside a fun l hl heq => ?outside⟩,
    fun hstride => ?total⟩
  case values =>
    rw [laneByte_eq hmap, hleaves.written (lanesApart_lanes hstride) (r, c) (mem_lanes _)]
    simp only [hbyte]
  case outside => exact ha l hl (heq ▸ laneAddr_eq (sampleOk_of_baseMapped hmap l.1 l.2))
  case total =>
    rw [hleaves.total (lanesApart_lanes hstride)]
    simp only [hbyte, lanes, List.map_cons, List.map_nil, List.sum_cons, List.sum_nil,
      Fin.sum_univ_four, add_assoc, add_zero]

end

/-! ## The three operations -/

/-- The run that `BLEND` and `DIFF` share. -/
theorem eachLane_blendLane_ok {s : State} (hmap : baseMapped s = true) (q : Nat) :
    let out := fun r c => blendResult (laneByte s r c) ((s.dp.acc.get r).get c).toNat q s.dp.ww
    ∃ m n, eachLane (blendLane q) lanes s = .ok n (s.setMem m) ∧ WritesBlock s (s.setMem m) out ∧
      (4 ≤ s.cfg.dstStride.toNat → n = residResult s.plat.diffPack s.dp.ww out (laneByte s)) := by
  obtain ⟨m, n, hrun, hwrites, htotal⟩ := eachLane_lanes_ok (laneWrites_blendLane s q) hmap
  simp only [blendval_toInt, residTerm_eq] at hwrites htotal
  exact ⟨m, n, hrun, hwrites, htotal⟩

section
variable {s : State} (hvalid : s.tab.rvalid = true) (hcount : s.dp.wacc ≠ 0)
  (hmap : baseMapped s = true)

include hvalid hcount

theorem rcp_eq_recipFor : rcp s = .ok (recipFor s s.dp.wacc.toNat) :=
  (rcp_ok_iff _ _).2 ⟨hvalid, hcount, rfl⟩

include hmap

theorem storeOp_ok :
    ∃ m, storeOp s = .ok () (s.setMem m) ∧ WritesBlock s (s.setMem m) fun r c =>
      storeResult ((s.dp.acc.get r).get c).toNat (recipFor s s.dp.wacc.toNat) := by
  obtain ⟨m, n, hrun, hwrites, -⟩ := eachLane_lanes_ok (laneWrites_storeLane s _) hmap
  simp only [storeval_toNat] at hwrites
  exact ⟨m, (look_bind_ok (rcp_eq_recipFor hvalid hcount)).trans (op_bind_ok hrun), hwrites⟩

theorem blendOp_ok :
    ∃ m, blendOp s = .ok () (s.setMem m) ∧ WritesBlock s (s.setMem m) fun r c =>
      blendResult (laneByte s r c) ((s.dp.acc.get r).get c).toNat (recipFor s s.dp.wacc.toNat) s.dp.ww := by
  obtain ⟨m, n, hrun, hwrites, -⟩ := eachLane_blendLane_ok hmap (recipFor s s.dp.wacc.toNat)
  exact ⟨m, (look_bind_ok (rcp_eq_recipFor hvalid hcount)).trans (op_bind_ok hrun), hwrites⟩

/-- The residual of sixteen lanes fits its register (10_state.md R45). -/
theorem diffOp_ok :
    let out := fun r c =>
      blendResult (laneByte s r c) ((s.dp.acc.get r).get c).toNat (recipFor s s.dp.wacc.toNat) s.dp.ww
    ∃ m v, diffOp s = .ok () ((s.setMem m).setResid v) ∧ WritesBlock s (s.setMem m) out ∧
      (4 ≤ s.cfg.dstStride.toNat → v.toNat = residResult s.plat.diffPack s.dp.ww out (laneByte s)) := by
  obtain ⟨m, n, hrun, hwrites, htotal⟩ := eachLane_blendLane_ok hmap (recipFor s s.dp.wacc.toNat)
  have hle : n ≤ 16 * 8415 := eachLane_value_le (fun _ _ _ _ _ => blendLane_value_le) lanes hrun
  have hfits : (BitVec.ofNat 32 n).toNat = n := Nat.mod_eq_of_lt (by omega)
  exact ⟨m, BitVec.ofNat 32 n, (look_bind_ok (rcp_eq_recipFor hvalid hcount)).trans (op_bind_ok hrun),
    hwrites, fun hstride => hfits.trans (htotal hstride)⟩

end

/-- Settles O32: the run over the lanes with the store value of each. -/
theorem storeWritesTheMean : Obligations.StoreWritesTheMean := by
  intro s hvalid hcount hmap
  obtain ⟨m, hrun, hwrites⟩ := storeOp_ok hvalid hcount hmap
  exact ⟨_, exec_of_ok hrun, rfl, hwrites⟩

/-- Settles O33: the run over the lanes with the blend of each. -/
theorem blendMixesTheBlocks : Obligations.BlendMixesTheBlocks := by
  intro s hvalid hcount hmap
  obtain ⟨m, hrun, hwrites⟩ := blendOp_ok hvalid hcount hmap
  exact ⟨_, exec_of_ok hrun, rfl, hwrites⟩

/-- Settles O34: the run of O33, whose lanes answer the terms of the residual. -/
theorem diffBlendsAndMeasures : Obligations.DiffBlendsAndMeasures := by
  intro s hvalid hcount hmap out
  obtain ⟨m, v, hrun, hwrites, hresid⟩ := diffOp_ok hvalid hcount hmap
  exact ⟨_, exec_of_ok hrun, rfl, hwrites, hresid⟩

/-- A write-back starts with the reciprocal lookup. -/
theorem exec_writeBack_error {i : Instr} {s : State} {e : Cause} (hi : i = .store ∨ i = .blend ∨ i = .diff)
    (h : rcp s = .error e) : exec i s = .next (takeFault s e (encode i)) := by
  obtain rfl | rfl | rfl := hi <;> exact exec_of_error (look_bind_error h)

/-- Settles O35: the two ways in which the lookup fails. -/
theorem writeBackNeedsTableAndCount : Obligations.WriteBackNeedsTableAndCount :=
  fun _ _ hi => ⟨fun hinvalid => exec_writeBack_error hi (rcp_error_invalid hinvalid),
    fun hvalid hzero => exec_writeBack_error hi (rcp_error_zero hvalid hzero)⟩

end Sys2Proof.Machine

/-! # Walks

The address generator steps through the nominal positions of a geometry in raster order, with the anchors
clamped at each (45_scan_driver.md R200 to R206). `walkOp_ok` is the induction over the tiles, packaged once:
what holds before the first tile, and what every tile carries on, holds when the walk is done. -/

namespace Sys2Proof.Machine

/-! ## The positions of a walk -/

/-- The first position that the loop test of a geometry stops at (R200). -/
def walkLimit : Geometry → Nat → Nat
  | .p1, dim => dim + 3
  | .p2a, dim => dim - 4
  | .p2b, dim => dim - 4

theorem walkCont_iff (g : Geometry) (t dim : Nat) : walkCont g t dim = true ↔ t < walkLimit g dim := by
  cases g <;> simp only [walkCont, walkLimit, decide_eq_true_eq] <;> omega

section
variable {g : Geometry} {k : Nat} {c : CfgRegs}

/-- R206 counts the tiles that the loop test lets through. -/
theorem walkCont_across_iff (i : Nat) :
    walkCont g ((walkStart g k).1 + 4 * i) c.width.toNat = true ↔ i < tilesAcross g k c := by
  rw [walkCont_iff]
  cases g <;> simp only [walkLimit, tilesAcross, tilesOn, walkStart] <;> omega

theorem walkCont_down_iff (j : Nat) :
    walkCont g ((walkStart g k).2 + 4 * j) c.height.toNat = true ↔ j < tilesDown g k c := by
  rw [walkCont_iff]
  cases g <;> simp only [walkLimit, tilesDown, tilesOn, walkStart] <;> omega

/-- The loop test lets no position through that a coordinate register cannot hold. -/
theorem toNat_ofNat_of_walkCont {t : Nat} {dim : Half} (h : walkCont g t dim.toNat = true) :
    (BitVec.ofNat 32 t).toNat = t := by
  have hdim := dim.isLt
  rw [walkCont_iff] at h
  refine Nat.mod_eq_of_lt ?_
  cases g <;> simp only [walkLimit] at h <;> omega

/-- How many tiles a walk has (R206). -/
def walkTotal (g : Geometry) (k : Nat) (c : CfgRegs) : Nat := tilesAcross g k c * tilesDown g k c

/-- The bound of the model's loop is never short of a walk (log entry 9). -/
theorem walkTotal_le_tileCount : walkTotal g k c ≤ tileCount c := by
  refine Nat.mul_le_mul ?_ ?_
  · cases g <;> simp only [tilesAcross, tilesOn] <;> omega
  · cases g <;> simp only [tilesDown, tilesOn] <;> omega

end

/-! ## The anchors -/

theorem searchAnchor_lt (g : Geometry) (r t : Nat) (dim : Half) : searchAnchor g r t dim.toNat < 2 ^ 32 := by
  have hdim := dim.isLt
  cases g <;> simp only [searchAnchor, clampNat] <;> omega

theorem baseAnchor_lt (g : Geometry) (t : Word) (dim : Half) : baseAnchor g t.toNat dim.toNat < 2 ^ 32 := by
  have ht := t.isLt
  cases g <;> simp only [baseAnchor] <;> omega

theorem clamped_agclamp (s : State) (g : Geometry) : Clamped (agclamp s g) g :=
  ⟨Nat.mod_eq_of_lt (searchAnchor_lt _ _ _ _), Nat.mod_eq_of_lt (searchAnchor_lt _ _ _ _),
    Nat.mod_eq_of_lt (baseAnchor_lt _ _ _), Nat.mod_eq_of_lt (baseAnchor_lt _ _ _)⟩

/-! ## The current tile -/

/-- The walk of a geometry stands at the tile of column `i` and row `j`. -/
structure AtTile (s : State) (g : Geometry) (k i j : Nat) : Prop where
  column : i < tilesAcross g k s.cfg
  row : j < tilesDown g k s.cfg
  tx : s.ag.tx.toNat = (walkStart g k).1 + 4 * i
  ty : s.ag.ty.toNat = (walkStart g k).2 + 4 * j
  agg : s.ag.agg = g
  agk : s.ag.agk.toNat = k
  agdone : s.ag.agdone = false
  clamped : Clamped s g

theorem atTile_enterTile {s : State} {g : Geometry} {k i j x y : Nat} (hi : i < tilesAcross g k s.cfg)
    (hj : j < tilesDown g k s.cfg) (hx : x = (walkStart g k).1 + 4 * i)
    (hy : y = (walkStart g k).2 + 4 * j) (hg : s.ag.agg = g) (hk : s.ag.agk.toNat = k) :
    AtTile (enterTile s g x y) g k i j := by
  subst hx hy
  exact ⟨hi, hj, toNat_ofNat_of_walkCont ((walkCont_across_iff i).2 hi),
    toNat_ofNat_of_walkCont ((walkCont_down_iff j).2 hj), hg, hk, rfl, clamped_agclamp _ g⟩

/-- The tile depends on the address generator and the configuration. -/
theorem atTile_congr {s t : State} {g : Geometry} {k i j : Nat} (h : AtTile s g k i j) (hag : t.ag = s.ag)
    (hcfg : t.cfg = s.cfg) : AtTile t g k i j := by
  obtain ⟨hi, hj, htx, hty, hg, hk, hdone, hclamped⟩ := h
  unfold Clamped at hclamped
  rw [← hag, ← hcfg] at *
  exact ⟨hi, hj, htx, hty, hg, hk, hdone, hclamped⟩

theorem atTile_lt_total {s : State} {g : Geometry} {k i j : Nat} (h : AtTile s g k i j) :
    j * tilesAcross g k s.cfg + i < walkTotal g k s.cfg := by
  have hrow := Nat.mul_le_mul_right (tilesAcross g k s.cfg) (Nat.succ_le_of_lt h.row)
  have hi := h.column
  rw [Nat.succ_mul] at hrow
  rw [walkTotal, Nat.mul_comm (tilesAcross _ _ _)]
  omega

/-- The walk has `m` tiles behind it: it stands at the next one in raster order, or it is done. -/
def WalkAt (s : State) (g : Geometry) (k m : Nat) : Prop :=
  (∃ i j, AtTile s g k i j ∧ m = j * tilesAcross g k s.cfg + i) ∨
    (s.ag.agdone = true ∧ m = walkTotal g k s.cfg)

section
variable {s : State} {g : Geometry} {k : Nat} (hgeom : geomOk s.cfg g k = true)
include hgeom

/-- `AGSTART` enters the first tile, where the geometry has one. -/
theorem agstartOp_walkAt (hk : k < 16) :
    ∃ ag, agstartOp g k s = .ok () { s with ag := ag } ∧ WalkAt { s with ag := ag } g k 0 := by
  have hx := walkCont_across_iff (g := g) (k := k) (c := s.cfg) 0
  have hy := walkCont_down_iff (g := g) (k := k) (c := s.cfg) 0
  have hrun := agstartOp_ok hgeom
  simp only [Nat.mul_zero, Nat.add_zero] at hx hy
  simp only [Bool.and_eq_true, hx, hy] at hrun
  split at hrun
  case isTrue hfirst =>
    have htile := atTile_enterTile (s := s.setLatch g (BitVec.ofNat 4 k)) hfirst.1 hfirst.2 rfl rfl rfl
      (Nat.mod_eq_of_lt hk)
    exact ⟨_, hrun, .inl ⟨0, 0, htile, by simp⟩⟩
  case isFalse hnone =>
    refine ⟨_, hrun, .inr ⟨rfl, ?_⟩⟩
    exact (Nat.eq_zero_of_not_pos fun hpos =>
      hnone ⟨Nat.pos_of_mul_pos_right hpos, Nat.pos_of_mul_pos_left hpos⟩).symm

/-- `AGNEXT` leaves one more tile behind. -/
theorem agnextOp_walkAt {i j : Nat} (h : AtTile s g k i j) :
    ∃ ag, agnextOp s = .ok () { s with ag := ag } ∧
      WalkAt { s with ag := ag } g k (j * tilesAcross g k s.cfg + i + 1) := by
  obtain ⟨hi, hj, htx, hty, rfl, rfl, hdone, -⟩ := h
  have hx := walkCont_across_iff (g := s.ag.agg) (k := s.ag.agk.toNat) (c := s.cfg) (i + 1)
  have hy := walkCont_down_iff (g := s.ag.agg) (k := s.ag.agk.toNat) (c := s.cfg) (j + 1)
  have hrun := agnextOp_ok hdone hgeom
  simp only [htx, hty, Nat.add_assoc, ← Nat.mul_succ 4, Nat.succ_eq_add_one, hx, hy] at hrun
  split at hrun
  case isTrue hcol => exact ⟨_, hrun, .inl ⟨i + 1, j, atTile_enterTile hcol hj rfl rfl rfl rfl, rfl⟩⟩
  case isFalse hcol =>
    have hend : i + 1 = tilesAcross s.ag.agg s.ag.agk.toNat s.cfg := by omega
    split at hrun
    case isTrue hrow =>
      refine ⟨_, hrun, .inl ⟨0, j + 1, atTile_enterTile (by omega) hrow rfl rfl rfl rfl, ?_⟩⟩
      rw [Nat.add_assoc, hend, Nat.succ_mul]
      rfl
    case isFalse hrow =>
      refine ⟨_, hrun, .inr ⟨rfl, ?_⟩⟩
      have hlast : j + 1 = tilesDown s.ag.agg s.ag.agk.toNat s.cfg := by omega
      rw [Nat.add_assoc, hend, ← Nat.succ_mul, Nat.succ_eq_add_one, hlast, Nat.mul_comm]
      rfl

end

/-! ## The induction over the tiles -/

/-- A property of the state and of the number of tiles behind the walk, that every tile operation carries on.
The address generator may move under it. -/
structure WalkInvariant (c : CfgRegs) (g : Geometry) (k : Nat) (tile : Op Unit) (I : Nat → State → Prop) :
    Prop where
  cfg : ∀ {m s}, I m s → s.cfg = c
  move : ∀ {m s} ag, I m s → I m { s with ag := ag }
  tile : ∀ {s i j}, AtTile s g k i j → I (j * tilesAcross g k c + i) s →
    ∃ t, tile s = .ok () t ∧ t.ag = s.ag ∧ I (j * tilesAcross g k c + i + 1) t

section
variable {c : CfgRegs} {g : Geometry} {k : Nat} {tile : Op Unit} {I : Nat → State → Prop}
  (hI : WalkInvariant c g k tile I) (hgeom : geomOk c g k = true)
include hI hgeom

theorem walkTiles_ok {n m : Nat} {s : State} (hat : WalkAt s g k m) (hs : I m s)
    (hn : walkTotal g k c ≤ m + n) :
    ∃ t, walkTiles tile n s = .ok () t ∧ I (walkTotal g k c) t ∧ t.ag.agdone = true := by
  induction n generalizing m s with
  | zero =>
    obtain rfl := hI.cfg hs
    obtain ⟨i, j, htile, rfl⟩ | ⟨hdone, rfl⟩ := hat
    · exact absurd (atTile_lt_total htile) hn.not_gt
    · exact ⟨s, rfl, hs, hdone⟩
  | succ n ih =>
    obtain rfl := hI.cfg hs
    obtain ⟨i, j, htile, rfl⟩ | ⟨hdone, rfl⟩ := hat
    · obtain ⟨t, hrun, hag, ht⟩ := hI.tile htile hs
      have hcfg := hI.cfg ht
      obtain ⟨ag, hnext, hat⟩ := agnextOp_walkAt (by rwa [hcfg]) (atTile_congr htile hag hcfg)
      rw [show tilesAcross g k t.cfg = tilesAcross g k s.cfg by rw [hcfg]] at hat
      obtain ⟨u, hrest, hu⟩ := ih hat (hI.move ag ht) (by omega)
      refine ⟨u, ?_, hu⟩
      rw [walkTiles_step htile.agdone, op_bind_ok hrun, op_bind_ok hnext, hrest]
    · exact ⟨s, walkTiles_done hdone _, hs, hdone⟩

/-- What holds with no tile behind the walk and is carried on by every tile, holds when the walk is done. -/
theorem walkOp_ok (hk : k < 16) {s : State} (hs : I 0 s) :
    ∃ t, walkOp g k tile s = .ok () t ∧ I (walkTotal g k c) t ∧ t.ag.agdone = true := by
  obtain rfl := hI.cfg hs
  obtain ⟨ag, hstart, hat⟩ := agstartOp_walkAt hgeom hk
  obtain ⟨t, hrun, ht⟩ := walkTiles_ok hI hgeom hat (hI.move ag hs)
    (n := tileCount s.cfg) (by rw [Nat.zero_add]; exact walkTotal_le_tileCount)
  exact ⟨t, (op_bind_ok hstart).trans hrun, ht⟩

end

end Sys2Proof.Machine

/-! # A plane of one value

In a plane whose samples all hold one value every candidate block equals its reference, so all candidates pass
and their mean is that value (43_recip_blend.md R169). A tile of `PASS1` therefore writes the value to its base
block. Since it writes nothing else, the source stays of one value even where the destination overlaps it, and
the tiles of the walk cover the plane (45_scan_driver.md R208, R216). -/

namespace Sys2Proof.Machine

/-! ## Clearing and scanning -/

/-- The datapath registers after `CLRA` (42_masked_accumulator.md R151). -/
def cleared (d : DataRegs) : DataRegs := { d with acc := Quad.fill (Quad.fill 0), wacc := 0, ssum := 0 }

theorem clraOp_eq (s : State) : clraOp s = .ok () { s with dp := cleared s.dp } := rfl

@[simp] theorem cleared_wacc (d : DataRegs) : (cleared d).wacc.toNat = 0 := rfl
@[simp] theorem cleared_ssum (d : DataRegs) : (cleared d).ssum.toNat = 0 := rfl
@[simp] theorem cleared_acc (d : DataRegs) (r c : Fin 4) : (((cleared d).acc.get r).get c).toNat = 0 := by
  simp [cleared]

/-- From cleared registers a scan of at most 49 candidates stays below every bound of R132, R133 and R150. -/
theorem scanOp_cleared_ok {s : State} {cp : Plane} {ca : Anchor} (sum : Bool) {os : List (Int × Int)}
    (hread : scanReadable s cp ca os = true) (hlen : os.length ≤ 49) :
    ∃ e, scanOp cp ca sum os { s with dp := cleared s.dp } = .ok () { s with dp := e } ∧
      ScanAdds s cp ca sum os (cleared s.dp) e := by
  refine scanOp_ok s cp ca sum os (cleared s.dp) rfl hread ?_ ?_ fun r c => ?_
  · rw [cleared_wacc, waccMax]
    omega
  · rw [cleared_ssum]
    omega
  · rw [cleared_acc, accMax]
    omega

/-- The candidates of a square are at most its radius away (R180). -/
theorem natAbs_le_of_mem_square {r : Nat} {o : Int × Int} (h : o ∈ square r) :
    o.1.natAbs ≤ r ∧ o.2.natAbs ≤ r := by
  simp only [square, List.bind_eq_flatMap, List.pure_def, List.mem_flatMap, List.mem_map,
    List.mem_singleton, List.mem_range] at h
  obtain ⟨_, ⟨j, hj, rfl⟩, _, ⟨i, hi, rfl⟩, rfl⟩ := h
  constructor <;> simp only <;> omega

/-! ## Launching a pass over such a plane -/

/-- A ready state with a legal table, a plane and a destination stride that fit `P1`, temporal mode off and
every source sample equal to `v`. -/
structure UniformSource (s : State) (v : Byte) : Prop where
  ready : LaunchReady s
  table : TableLegal s
  geom : geomOk s.cfg .p1 0 = true
  stride : 4 ≤ s.cfg.dstStride.toNat
  spatial : modeT s.cfg = false
  sample : ∀ x, x < s.cfg.width.toNat → ∀ y, y < s.cfg.height.toNat →
    s.byteAt (linearAddr s.cfg .src x y) = v

/-- The room that `P1` keeps between its anchors and the edges of the plane: a candidate of radius `R` stays
inside (45_scan_driver.md R207). -/
structure AnchorRoom (s : State) (r : Nat) : Prop where
  left : r ≤ s.ag.searchX.toNat
  right : s.ag.searchX.toNat + r + 4 ≤ s.cfg.width.toNat
  top : r ≤ s.ag.searchY.toNat
  bottom : s.ag.searchY.toNat + r + 4 ≤ s.cfg.height.toNat
  baseRight : s.ag.baseX.toNat + 4 ≤ s.cfg.width.toNat
  baseBottom : s.ag.baseY.toNat + 4 ≤ s.cfg.height.toNat

theorem geomOk_p1 {c : CfgRegs} (h : geomOk c .p1 0 = true) :
    (c.modeR1.toNat = 2 ∨ c.modeR1.toNat = 3) ∧ 2 * c.modeR1.toNat + 4 ≤ c.width.toNat ∧
      2 * c.modeR1.toNat + 4 ≤ c.height.toNat := by
  simpa [geomOk, paramOk, dimOk, and_assoc] using h

theorem anchorRoom_of_clamped {s : State} (hgeom : geomOk s.cfg .p1 0 = true) (h : Clamped s .p1) :
    AnchorRoom s s.cfg.modeR1.toNat := by
  obtain ⟨-, hw, hh⟩ := geomOk_p1 hgeom
  obtain ⟨hsx, hsy, hbx, hby⟩ := h
  simp only [searchAnchor, clampNat, baseAnchor] at hsx hsy hbx hby
  constructor <;> omega

section
variable {s : State} {v : Byte} (h : UniformSource s v)
include h

theorem recipFor_eq {n : Nat} (hn : n < 1024) : recipFor s n = (recipEntry n).toNat := by
  have hlen : n < recipCount := hn
  rw [recipFor, recipAt, h.table.2 h.ready.table, recipTable]
  simp [hlen]

/-! ## Reads -/

theorem blk_uniform {x y : Int} (hx : 0 ≤ x) (hx' : x + 4 ≤ s.cfg.width.toNat) (hy : 0 ≤ y)
    (hy' : y + 4 ≤ s.cfg.height.toNat) : blk s .src x y = .ok (Quad.fill (Quad.fill v)) := by
  obtain ⟨x, rfl⟩ := Int.eq_ofNat_of_zero_le hx
  obtain ⟨y, rfl⟩ := Int.eq_ofNat_of_zero_le hy
  refine (blk_ok_iff_samples _ _ _ _ _).2 fun r c => (px_ok_iff _ _ _ _ _).2 ?_
  have hcol : x + c.val < s.cfg.width.toNat := by omega
  have hrow : y + r.val < s.cfg.height.toNat := by omega
  simpa using And.intro (h.ready.src _ hcol _ hrow) (h.sample _ hcol _ hrow).symm

variable {r : Nat} (hroom : AnchorRoom s r)
include hroom

theorem searchBlk_uniform {o : Int × Int} (hx : o.1.natAbs ≤ r) (hy : o.2.natAbs ≤ r) :
    candBlk s .src .s o.1 o.2 = .ok (Quad.fill (Quad.fill v)) := by
  obtain ⟨hl, hr, ht, hb, -, -⟩ := hroom
  exact blk_uniform h (by simp only [anchorPos]; omega) (by simp only [anchorPos]; omega)
    (by simp only [anchorPos]; omega) (by simp only [anchorPos]; omega)

theorem baseBlk_uniform : candBlk s .src .b 0 0 = .ok (Quad.fill (Quad.fill v)) := by
  obtain ⟨-, -, -, -, hr, hb⟩ := hroom
  exact blk_uniform h (by simp only [anchorPos]; omega) (by simp only [anchorPos]; omega)
    (by simp only [anchorPos]; omega) (by simp only [anchorPos]; omega)

theorem baseMapped_of_room : baseMapped s = true := by
  obtain ⟨-, -, -, -, hr, hb⟩ := hroom
  refine List.all_eq_true.2 fun l _ => h.ready.dst _ ?_ _ ?_ <;> omega

/-- The blocks of `DEVL` are at most one sample away from the search anchor (00_scope.md R8). -/
theorem devlOp_uniform (hr : 1 ≤ r) : ∃ d, devlOp s = .ok () (s.setDev d) := by
  have hadm := h.ready.admissible
  simp only [Platform.admissible, DevGeom.admissible, List.all_cons, List.all_nil, Bool.and_eq_true,
    decide_eq_true_eq] at hadm
  have hblk : ∀ {o : Int × Int}, ((-1 ≤ o.1 ∧ o.1 ≤ 1) ∧ -1 ≤ o.2) ∧ o.2 ≤ 1 →
      searchBlk s o = .ok (Quad.fill (Quad.fill v)) :=
    fun ho => searchBlk_uniform h hroom (by omega) (by omega)
  obtain ⟨⟨⟨ha1, hb1, ha2, hb2, -⟩, -⟩, -⟩ := hadm
  exact ⟨_, devlOp_ok (devlReads_ok (hblk ha1) (hblk hb1) (hblk ha2) (hblk hb2))⟩

/-! ## Kernels -/

section
variable {os : List (Int × Int)} (hos : ∀ o ∈ os, o.1.natAbs ≤ r ∧ o.2.natAbs ≤ r)
include hos

theorem scanReadable_uniform : scanReadable s .src .s os = true := by
  simp only [scanReadable, baseBlk_uniform h hroom, Bool.and_eq_true, List.all_eq_true]
  refine ⟨rfl, fun o ho => ?_⟩
  rw [searchBlk_uniform h hroom (hos o ho).1 (hos o ho).2]
  rfl

theorem candSad_uniform : ∀ o ∈ os, candSad s .src .s o = 0 := by
  intro o ho
  simp only [candSad, baseBlk_uniform h hroom, searchBlk_uniform h hroom (hos o ho).1 (hos o ho).2]
  rw [sad4x4_eq_blockDistance, blockDistance_self]

theorem sadSum_uniform : sadSum s .src .s os = 0 := by
  rw [sadSum, List.map_congr_left (candSad_uniform h hroom hos)]
  simp

variable (hthr : 1 ≤ s.dp.thr.toNat)
include hthr

theorem filter_candPasses_uniform : os.filter (candPasses s .src .s) = os := by
  refine List.filter_eq_self.2 fun o ho => ?_
  rw [candPasses, candSad_uniform h hroom hos o ho]
  exact decide_eq_true hthr

theorem laneSum_uniform (i j : Fin 4) : laneSum s .src .s os i j = os.length * v.toNat := by
  have hsample : ∀ o ∈ os, candSample s .src .s o i j = v.toNat := by
    intro o ho
    simp only [candSample, searchBlk_uniform h hroom (hos o ho).1 (hos o ho).2, Quad.get_fill]
  rw [laneSum, filter_candPasses_uniform h hroom hos hthr, List.map_congr_left hsample]
  simp

/-- All candidates pass. -/
theorem scanOp_uniform (sum : Bool) (hlen : os.length ≤ 49) :
    ∃ e, scanOp .src .s sum os { s with dp := cleared s.dp } = .ok () { s with dp := e } ∧
      e.wacc.toNat = os.length ∧ (∀ i j, ((e.acc.get i).get j).toNat = os.length * v.toNat) ∧
      e.ssum.toNat = 0 := by
  obtain ⟨e, hrun, hadds⟩ := scanOp_cleared_ok sum (scanReadable_uniform h hroom hos) hlen
  refine ⟨e, hrun, ?_, fun i j => ?_, ?_⟩
  · rw [hadds.wacc, cleared_wacc, Nat.zero_add, passCount, filter_candPasses_uniform h hroom hos hthr]
  · rw [hadds.acc, cleared_acc, Nat.zero_add, laneSum_uniform h hroom hos hthr]
  · rw [hadds.ssum, cleared_ssum, sadSum_uniform h hroom hos, ite_self]

end

/-- The mean of n equal candidates is their common value (43_recip_blend.md R169). -/
theorem storeOp_uniform {e : DataRegs} {n : Nat} (h1 : 1 ≤ n) (h2 : n ≤ 49) (hwacc : e.wacc.toNat = n)
    (hacc : ∀ i j, ((e.acc.get i).get j).toNat = n * v.toNat) :
    ∃ m, storeOp { s with dp := e } = .ok () { s with dp := e, mem := m } ∧
      WritesBlock s (s.setMem m) fun _ _ => (v.toNat : Int) := by
  have hcount : e.wacc ≠ 0 := fun hzero => by simp [hzero] at hwacc; omega
  have hmap := baseMapped_of_room h hroom
  obtain ⟨m, hrun, hwrites⟩ := storeOp_ok (s := { s with dp := e }) h.ready.table hcount hmap
  have hq : recipFor { s with dp := e } n = (recipEntry n).toNat := recipFor_eq h (by omega)
  simp only [hacc, hwacc, hq, ← storeval_toNat, storeval_uniform v h1 h2] at hwrites
  exact ⟨m, hrun, hwrites⟩

/-- An operation that completes, changes datapath registers and memory only, and puts `v` into every sample of
the base block. -/
def Fills (s : State) (v : Byte) (op : Op Unit) : Prop :=
  ∃ d m, op s = .ok () { s with dp := d, mem := m } ∧
    WritesBlock s (s.setMem m) fun _ _ => (v.toNat : Int)

theorem filtOp_uniform (hr : r = 2 ∨ r = 3) (hthr : 1 ≤ s.dp.thr.toNat) : Fills s v (filtOp r) := by
  have hlen : 1 ≤ (square r).length ∧ (square r).length ≤ 49 := by
    obtain rfl | rfl := hr <;> decide
  have hradius : ¬ r = 0 := by omega
  obtain ⟨e, hscan, hwacc, hacc, -⟩ :=
    scanOp_uniform h hroom (fun _ => natAbs_le_of_mem_square) hthr false hlen.2
  obtain ⟨m, hstore, hwrites⟩ := storeOp_uniform h hroom hlen.1 hlen.2 hwacc hacc
  refine ⟨e, m, ?_, hwrites⟩
  rw [filtOp, op_bind_ok (clraOp_eq s), if_neg hradius, op_bind_ok hscan, hstore]

/-- The running total stays 0, so `AFILT` ends with its first stage (44_filter_kernels.md R182). -/
theorem afiltOp_uniform (hr : 1 ≤ r) (hthr : 1 ≤ s.dp.thr.toNat) : Fills s v (afiltOp r) := by
  have hnear : ∀ o ∈ ring 0 ++ ring 1, o.1.natAbs ≤ r ∧ o.2.natAbs ≤ r := fun o ho => by
    have hone : ∀ o ∈ ring 0 ++ ring 1, o.1.natAbs ≤ 1 ∧ o.2.natAbs ≤ 1 := by decide
    exact (hone o ho).imp (·.trans hr) (·.trans hr)
  obtain ⟨e, hscan, hwacc, hacc, hssum⟩ := scanOp_uniform h hroom hnear hthr true (by decide)
  obtain ⟨m, hstore, hwrites⟩ := storeOp_uniform h hroom (by decide) (by decide) hwacc hacc
  have hstop : ¬ sThresh2 ≤ e.ssum.toNat := by rw [hssum]; decide
  refine ⟨e, m, ?_, hwrites⟩
  rw [afiltOp, op_bind_ok (clraOp_eq s), op_bind_ok hscan, op_bind_ok (op_get _), if_neg hstop]
  exact hstore

/-! ## A tile -/

omit hroom in
theorem uniformSource_setDp (d : DataRegs) : UniformSource { s with dp := d } v :=
  ⟨⟨h.ready.running, h.ready.admissible, h.ready.src, h.ready.dst, h.ready.table⟩, h.table, h.geom, h.stride,
    h.spatial, h.sample⟩

end

theorem one_le_threshValue (dev lambda tmax : Half) : 1 ≤ (threshValue dev lambda tmax).toNat := by
  have := tmax.isLt
  rw [threshValue, BitVec.toNat_ofNat]
  omega

/-- A spatial tile before its filter: `DEV` is measured, and `THR` follows from it (45_scan_driver.md R210). -/
def measured (s : State) (dev : Half) : State :=
  (s.setDev dev).setThr (threshValue dev s.cfg.lambda s.cfg.tmax)

/-- `TILE1` without temporal mode is `DEVL`, `THRESH` and one of two filters. -/
theorem tile1Op_spatial {s : State} {dev : Half} (hr : 2 ≤ s.cfg.modeR1.toNat) (ht : modeT s.cfg = false)
    (hdevl : devlOp s = .ok () (s.setDev dev)) :
    tile1Op s = (if modeAR s.cfg && exactTile s.ag then afiltOp s.cfg.modeR1.toNat
      else filtOp s.cfg.modeR1.toNat) (measured s dev) := by
  have hr' : ¬ s.cfg.modeR1.toNat < 2 := by omega
  rw [tile1Op, op_bind_ok (op_get s), if_neg hr', op_bind_ok hdevl, ht]
  rfl

/-- `TILE1` puts the value of the plane into its base block. -/
theorem tile1Op_uniform {s : State} {v : Byte} (h : UniformSource s v) (hclamped : Clamped s .p1) :
    Fills s v tile1Op := by
  obtain ⟨hr, -, -⟩ := geomOk_p1 h.geom
  have hroom := anchorRoom_of_clamped h.geom hclamped
  obtain ⟨dev, hdevl⟩ := devlOp_uniform h hroom (by omega)
  have hrun := tile1Op_spatial (by omega) h.spatial hdevl
  have hmeasured : UniformSource (measured s dev) v := uniformSource_setDp h _
  have hroom' : AnchorRoom (measured s dev) s.cfg.modeR1.toNat := anchorRoom_of_clamped h.geom hclamped
  have hthr : 1 ≤ (measured s dev).dp.thr.toNat := one_le_threshValue _ _ _
  split at hrun
  case isTrue =>
    obtain ⟨d, m, hfilt, hwrites⟩ := afiltOp_uniform hmeasured hroom' (by omega) hthr
    exact ⟨d, m, hrun.trans hfilt, hwrites⟩
  case isFalse =>
    obtain ⟨d, m, hfilt, hwrites⟩ := filtOp_uniform hmeasured hroom' hr hthr
    exact ⟨d, m, hrun.trans hfilt, hwrites⟩

/-! ## The pass -/

section
variable {s : State} {v : Byte} {m : Memory}

/-- Writing the value that every source sample holds changes no source sample, wherever it is written. -/
theorem uniformSource_of_bytes (h : UniformSource s v)
    (hbytes : ∀ a, (s.setMem m).byteAt a = v ∨ (s.setMem m).byteAt a = s.byteAt a) (d : DataRegs) :
    UniformSource { s with dp := d, mem := m } v where
  ready := ⟨h.ready.running, h.ready.admissible, h.ready.src, h.ready.dst, h.ready.table⟩
  table := h.table
  geom := h.geom
  stride := h.stride
  spatial := h.spatial
  sample x hx y hy := (hbytes _).elim id (·.trans (h.sample x hx y hy))

variable (hwrites : WritesBlock s (s.setMem m) fun _ _ => (v.toNat : Int)) (hmap : baseMapped s = true)
  (hstride : 4 ≤ s.cfg.dstStride.toNat)
include hwrites hmap hstride

theorem byteAt_laneIndex_of_writes (r c : Fin 4) : (s.setMem m).byteAt (laneIndex s r c) = v := by
  rw [← laneByte_eq hmap]
  exact BitVec.eq_of_toNat_eq (Int.ofNat.inj (hwrites.1 hstride r c))

theorem byteAt_of_writes (a : Nat) : (s.setMem m).byteAt a = v ∨ (s.setMem m).byteAt a = s.byteAt a := by
  by_cases ha : OutsideBase s a
  · exact .inr (hwrites.2 a ha)
  · simp only [OutsideBase, not_forall, not_not] at ha
    obtain ⟨⟨r, c⟩, -, ha⟩ := ha
    cases (laneAddr_eq (sampleOk_of_baseMapped hmap r c)).symm.trans ha
    exact .inl (byteAt_laneIndex_of_writes hwrites hmap hstride r c)

end

/-- The base block of a `P1` tile holds every sample of the plane that falls on the tile, at the right and lower
edge too (45_scan_driver.md R208). -/
theorem laneIndex_of_atTile {s : State} {i j x y : Nat} (h : AtTile s .p1 0 i j)
    (hgeom : geomOk s.cfg .p1 0 = true) (hx : x < s.cfg.width.toNat) (hy : y < s.cfg.height.toNat)
    (hxi : x / 4 = i) (hyj : y / 4 = j) :
    ∃ r c : Fin 4, laneIndex s r c = linearAddr s.cfg .dst x y := by
  obtain ⟨-, hw, hh⟩ := geomOk_p1 hgeom
  obtain ⟨-, -, hbx, hby⟩ := h.clamped
  simp only [baseAnchor, h.tx, h.ty, walkStart] at hbx hby
  refine ⟨⟨y - s.ag.baseY.toNat, by omega⟩, ⟨x - s.ag.baseX.toNat, by omega⟩, ?_⟩
  have hcol : s.ag.baseX.toNat + (x - s.ag.baseX.toNat) = x := by omega
  have hrow : s.ag.baseY.toNat + (y - s.ag.baseY.toNat) = y := by omega
  simp only [laneIndex, baseLane, hcol, hrow]

/-- The tile that a sample of the plane falls on, in raster order. -/
def tileOf (c : CfgRegs) (x y : Nat) : Nat := y / 4 * tilesAcross .p1 0 c + x / 4

theorem column_lt_tilesAcross {c : CfgRegs} {x : Nat} (hx : x < c.width.toNat) :
    x / 4 < tilesAcross .p1 0 c := by
  simp only [tilesAcross, tilesOn]
  omega

theorem tileOf_lt_total {c : CfgRegs} {x y : Nat} (hx : x < c.width.toNat) (hy : y < c.height.toNat) :
    tileOf c x y < walkTotal .p1 0 c := by
  have hcol := column_lt_tilesAcross hx
  have hrow : y / 4 + 1 ≤ tilesDown .p1 0 c := by
    simp only [tilesDown, tilesOn]
    omega
  have hmul := Nat.mul_le_mul_left (tilesAcross .p1 0 c) hrow
  rw [Nat.mul_succ] at hmul
  rw [tileOf, walkTotal, Nat.mul_comm (y / 4)]
  omega

/-- With `m` tiles behind the walk, the source is as it has to be and the samples on those tiles hold `v`. -/
structure Copied (c : CfgRegs) (v : Byte) (m : Nat) (s : State) : Prop where
  cfg : s.cfg = c
  source : UniformSource s v
  copied : ∀ x, x < c.width.toNat → ∀ y, y < c.height.toNat → tileOf c x y < m →
    s.byteAt (linearAddr c .dst x y) = v

theorem tile1Op_copies {c : CfgRegs} {v : Byte} {s : State} {i j : Nat} (htile : AtTile s .p1 0 i j)
    (hs : Copied c v (j * tilesAcross .p1 0 c + i) s) :
    ∃ t, tile1Op s = .ok () t ∧ t.ag = s.ag ∧ Copied c v (j * tilesAcross .p1 0 c + i + 1) t := by
  obtain ⟨rfl, hsource, hcopied⟩ := hs
  obtain ⟨d, m, hrun, hwrites⟩ := tile1Op_uniform hsource htile.clamped
  have hmap := baseMapped_of_room hsource (anchorRoom_of_clamped hsource.geom htile.clamped)
  have hbytes := byteAt_of_writes hwrites hmap hsource.stride
  refine ⟨_, hrun, rfl, rfl, uniformSource_of_bytes hsource hbytes d, fun x hx y hy hlt => ?_⟩
  obtain hbefore | hcurrent := Nat.lt_succ_iff_lt_or_eq.1 hlt
  · exact (hbytes _).elim id (·.trans (hcopied x hx y hy hbefore))
  · obtain ⟨hyj, hxi⟩ := raster_injective (column_lt_tilesAcross hx) htile.column hcurrent
    obtain ⟨r, k, hlane⟩ := laneIndex_of_atTile htile hsource.geom hx hy hxi hyj
    exact hlane ▸ byteAt_laneIndex_of_writes hwrites hmap hsource.stride r k

theorem copied_walkInvariant (c : CfgRegs) (v : Byte) :
    WalkInvariant c .p1 0 tile1Op (Copied c v) where
  cfg h := h.cfg
  move _ h := ⟨h.cfg, { h.source with ready := { h.source.ready with } }, h.copied⟩
  tile := tile1Op_copies

theorem pass1Op_spatial {s : State} (hplane : planeOk s.cfg false = true) (ht : modeT s.cfg = false) :
    pass1Op s = walkOp .p1 0 tile1Op s := by
  rw [pass1Op, op_bind_ok (op_get s), if_pos (by rwa [ht])]

/-- `PlaneOK` and the smallest plane of `P1` leave rows that share no bytes (R201, R213). -/
theorem four_le_dstStride {c : CfgRegs} (hplane : planeOk c false = true) (hgeom : geomOk c .p1 0 = true) :
    4 ≤ c.dstStride.toNat := by
  obtain ⟨-, hw, -⟩ := geomOk_p1 hgeom
  simp only [planeOk, Bool.and_eq_true, decide_eq_true_eq] at hplane
  obtain ⟨⟨-, hdst⟩, -⟩ := hplane
  omega

/-- Settles O59: every sample falls on a tile of the walk, and the walk ends with the samples of its tiles
copied. -/
theorem uniformPlaneIsUnchanged : Obligations.UniformPlaneIsUnchanged := by
  intro s v hready htable hplane hgeom hspatial hsample
  have hsource : UniformSource s v :=
    ⟨hready, htable, hgeom, four_le_dstStride hplane hgeom, hspatial, hsample⟩
  obtain ⟨t, hrun, ht, -⟩ := walkOp_ok (copied_walkInvariant s.cfg v) hgeom (by decide)
    ⟨rfl, hsource, fun _ _ _ _ => nofun⟩
  exact ⟨t, exec_of_ok ((pass1Op_spatial hplane hspatial).trans hrun), ht.source.ready.running,
    fun x hx y hy => ht.copied x hx y hy (tileOf_lt_total hx hy)⟩

end Sys2Proof.Machine

/-! # The filter kernels

Every kernel is a clear, a scan and a write-back. The scan leaves the count and the lane sums of R188, and the
write-back takes its reciprocal and its lanes from them (44_filter_kernels.md R181 to R184). `AFILT` chooses its
offsets while it scans; below, its pseudocode is one scan of the offsets that the whole state fixes beforehand
(R182). -/

namespace Sys2Proof.Machine

/-! ## What a scan leaves -/

section
variable {s : State} {cp : Plane} {ca : Anchor} {os : List (Int × Int)} {e : DataRegs}

/-- From cleared registers, what a scan adds is what it leaves. -/
theorem scanLeaves_of_scanAdds {sum : Bool} (h : ScanAdds s cp ca sum os (cleared s.dp) e) :
    ScanLeaves s cp ca os (if sum then sadSum s cp ca os else 0) e where
  wacc := by rw [h.wacc, cleared_wacc, Nat.zero_add]
  acc r c := by rw [h.acc, cleared_acc, Nat.zero_add]
  ssum := by rw [h.ssum, cleared_ssum, Nat.zero_add]
  last := h.last
  thr := h.thr
  dev := h.dev
  devp := h.devp
  devn := h.devn
  ww := h.ww

/-- A scan of at most 49 candidates from cleared registers. -/
theorem scanOp_leaves (sum : Bool) (hread : scanReadable s cp ca os = true) (hlen : os.length ≤ 49) :
    ∃ e, scanOp cp ca sum os { s with dp := cleared s.dp } = .ok () { s with dp := e } ∧
      ScanLeaves s cp ca os (if sum then sadSum s cp ca os else 0) e ∧ e.resid = s.dp.resid := by
  obtain ⟨e, hrun, hadds⟩ := scanOp_cleared_ok sum hread hlen
  exact ⟨e, hrun, scanLeaves_of_scanAdds hadds, hadds.resid⟩

theorem sameButData_of_datapath (s : State) (d : DataRegs) (m : Memory) :
    SameButData s { s with dp := d, mem := m } :=
  ⟨rfl, rfl, rfl, rfl, rfl, rfl, rfl⟩

/-! ## The write-back after a scan -/

variable {n : Nat} (hscan : ScanLeaves s cp ca os n e) (hpass : 0 < passCount s cp ca os)
  (hvalid : s.tab.rvalid = true) (hmap : baseMapped s = true)
include hscan hpass

theorem wacc_ne_zero_of_scanLeaves : e.wacc ≠ 0 := fun hzero => by
  have hcount := hscan.wacc
  rw [hzero] at hcount
  exact hpass.ne hcount

include hvalid hmap

theorem storeOp_scanned :
    ∃ m, storeOp { s with dp := e } = .ok () { s with dp := e, mem := m } ∧
      WritesBlock s { s with dp := e, mem := m } fun i j =>
        storeResult (laneSum s cp ca os i j) (recipFor s (passCount s cp ca os)) := by
  obtain ⟨m, hrun, hwrites⟩ :=
    storeOp_ok (s := { s with dp := e }) hvalid (wacc_ne_zero_of_scanLeaves hscan hpass) hmap
  simp only [hscan.acc, hscan.wacc] at hwrites
  exact ⟨m, hrun, hwrites⟩

theorem blendOp_scanned :
    ∃ m, blendOp { s with dp := e } = .ok () { s with dp := e, mem := m } ∧
      WritesBlock s { s with dp := e, mem := m } fun i j =>
        blendResult (laneByte s i j) (laneSum s cp ca os i j) (recipFor s (passCount s cp ca os)) s.dp.ww := by
  obtain ⟨m, hrun, hwrites⟩ :=
    blendOp_ok (s := { s with dp := e }) hvalid (wacc_ne_zero_of_scanLeaves hscan hpass) hmap
  simp only [hscan.acc, hscan.wacc, hscan.ww] at hwrites
  exact ⟨m, hrun, hwrites⟩

theorem diffOp_scanned :
    let out := fun i j =>
      blendResult (laneByte s i j) (laneSum s cp ca os i j) (recipFor s (passCount s cp ca os)) s.dp.ww
    ∃ m v, diffOp { s with dp := e } = .ok () { s with dp := { e with resid := v }, mem := m } ∧
      WritesBlock s { s with dp := { e with resid := v }, mem := m } out ∧
      (4 ≤ s.cfg.dstStride.toNat → v.toNat = residResult s.plat.diffPack s.dp.ww out (laneByte s)) := by
  obtain ⟨m, v, hrun, hwrites, hresid⟩ :=
    diffOp_ok (s := { s with dp := e }) hvalid (wacc_ne_zero_of_scanLeaves hscan hpass) hmap
  simp only [hscan.acc, hscan.wacc, hscan.ww] at hwrites hresid
  exact ⟨m, v, hrun, hwrites, hresid⟩

end

/-! ## FILT, OFILT and DFILT -/

theorem square_length_le {r : Nat} (hr : r ≤ 3) : (square r).length ≤ 49 := by
  interval_cases r <;> decide

/-- Settles O39: the scan of the square, and the store of what it leaves. -/
theorem filtFiltersTheBlock : Obligations.FiltFiltersTheBlock := by
  intro r s hr a hread hpass hvalid hmap
  obtain ⟨e, hscan, hleaves, hresid⟩ := scanOp_leaves false hread (square_length_le (by omega))
  obtain ⟨m, hstore, hwrites⟩ := storeOp_scanned hleaves hpass hvalid hmap
  have hrun : filtOp r s = .ok () { s with dp := e, mem := m } := by
    rw [filtOp, op_bind_ok (clraOp_eq s), op_bind_ok hscan, hstore]
  exact ⟨_, exec_of_ok hrun, sameButData_of_datapath s e m, hleaves, hresid, hwrites⟩

/-- Settles O41: the scan of the square, and the blend of what it leaves. -/
theorem ofiltBlendsTheBlock : Obligations.OfiltBlendsTheBlock := by
  intro r cp s hr _ hread hpass hvalid hmap
  obtain ⟨e, hscan, hleaves, hresid⟩ := scanOp_leaves false hread (square_length_le (by omega))
  obtain ⟨m, hblend, hwrites⟩ := blendOp_scanned hleaves hpass hvalid hmap
  have hrun : ofiltOp r cp s = .ok () { s with dp := e, mem := m } := by
    rw [ofiltOp, op_bind_ok (clraOp_eq s), op_bind_ok hscan, hblend]
  exact ⟨_, exec_of_ok hrun, sameButData_of_datapath s e m, hleaves, hresid, hwrites⟩

/-- Settles O42: the scan of the nine candidates, and the blend and residual of what it leaves. -/
theorem dfiltBlendsAndMeasures : Obligations.DfiltBlendsAndMeasures := by
  intro s hread hpass hvalid hmap out
  obtain ⟨e, hscan, hleaves, -⟩ := scanOp_leaves false hread (square_length_le (by omega))
  obtain ⟨m, v, hdiff, hwrites, hresid⟩ := diffOp_scanned hleaves hpass hvalid hmap
  have hrun : dfiltOp s = .ok () { s with dp := { e with resid := v }, mem := m } := by
    rw [dfiltOp, op_bind_ok (clraOp_eq s), op_bind_ok hscan, hdiff]
  exact ⟨_, exec_of_ok hrun, sameButData_of_datapath s _ m, { hleaves with }, hwrites, hresid⟩

/-! ## AFILT -/

theorem afiltOffsets_of_lt {s : State} {r : Nat} (h : sadSum s .src .s (ring 0 ++ ring 1) < sThresh2) :
    afiltOffsets s r = ring 0 ++ ring 1 :=
  if_pos h

theorem afiltOffsets_of_le {s : State} {r : Nat} (h : sThresh2 ≤ sadSum s .src .s (ring 0 ++ ring 1)) :
    afiltOffsets s r = ring 0 ++ ring 1 ++ ring 2 ++
      if r = 3 ∧ sThresh3 ≤ sadSum s .src .s (ring 0 ++ ring 1 ++ ring 2) then ring 3 else [] := by
  rw [afiltOffsets, if_neg h.not_gt]
  split
  · rfl
  · exact (List.append_nil _).symm

/-- Stage 1 is scanned whatever the total (R182). -/
theorem nearRings_prefix_afiltOffsets (s : State) (r : Nat) : ring 0 ++ ring 1 <+: afiltOffsets s r := by
  obtain h | h := Nat.lt_or_ge (sadSum s .src .s (ring 0 ++ ring 1)) sThresh2
  · rw [afiltOffsets_of_lt h]
  · rw [afiltOffsets_of_le h, List.append_assoc]
    exact List.prefix_append _ _

theorem afiltOffsets_length_le (s : State) (r : Nat) : (afiltOffsets s r).length ≤ 49 := by
  unfold afiltOffsets
  split
  · decide
  · split <;> decide

section
variable {s : State} {cp : Plane} {ca : Anchor}

/-- A scan that completed goes on where it ended: a scan of more offsets is it and a scan of the others. -/
theorem scanOp_append_ok {sum : Bool} {os : List (Int × Int)} {t : State}
    (h : scanOp cp ca sum os s = .ok () t) (ps : List (Int × Int)) :
    scanOp cp ca sum (os ++ ps) s = scanOp cp ca sum ps t :=
  (scanOp_append cp ca sum os ps s).trans (op_bind_ok h)

/-- After a summing scan of a part of readable offsets, `SSUM` is the sum of the SADs so far. -/
theorem scanOp_prefix_total {os qs : List (Int × Int)} (hpre : os <+: qs) (hlen : qs.length ≤ 49)
    (hread : scanReadable s cp ca qs = true) :
    ∃ t, scanOp cp ca true os { s with dp := cleared s.dp } = .ok () t ∧
      t.dp.ssum.toNat = sadSum s cp ca os := by
  obtain ⟨ps, rfl⟩ := hpre
  obtain ⟨e, hrun, hleaves, -⟩ := scanOp_leaves true (scanReadable_append hread).1
    ((List.prefix_append os ps).length_le.trans hlen)
  exact ⟨_, hrun, hleaves.ssum⟩

end

/-- `AFILT` decides to widen by the totals that fix `afiltOffsets`, so it scans just those offsets. -/
theorem afiltOp_eq_scan {s : State} {r : Nat} (hread : scanReadable s .src .s (afiltOffsets s r) = true) :
    afiltOp r s =
      (scanOp .src .s true (afiltOffsets s r) >>= fun _ => storeOp) { s with dp := cleared s.dp } := by
  have hlen := afiltOffsets_length_le s r
  obtain ⟨t, hnear, hnearSum⟩ := scanOp_prefix_total (nearRings_prefix_afiltOffsets s r) hlen hread
  rw [afiltOp, op_bind_ok (clraOp_eq s), op_bind_ok hnear, op_bind_ok (op_get t), hnearSum]
  obtain hstop | hwiden := Nat.lt_or_ge (sadSum s .src .s (ring 0 ++ ring 1)) sThresh2
  case inl => rw [if_neg hstop.not_ge, afiltOffsets_of_lt hstop, op_bind_ok hnear]
  case inr =>
    have hoffsets := afiltOffsets_of_le (r := r) hwiden
    obtain ⟨u, hwide, hwideSum⟩ := scanOp_prefix_total ⟨_, hoffsets.symm⟩ hlen hread
    have hstage2 : scanOp .src .s true (ring 2) t = .ok () u :=
      (scanOp_append_ok hnear (ring 2)).symm.trans hwide
    rw [if_pos hwiden, op_bind_ok hstage2, op_bind_ok (op_get u), hwideSum, hoffsets, op_bind,
      scanOp_append_ok hwide]
    split
    case isTrue => exact op_bind _ _ u
    case isFalse => rfl

/-- Settles O40: one scan of the offsets that the totals ask for, and the store of what it leaves. -/
theorem afiltWidensOnDemand : Obligations.AfiltWidensOnDemand := by
  intro r s _ os hread hpass hvalid hmap
  obtain ⟨e, hscan, hleaves, hresid⟩ := scanOp_leaves true hread (afiltOffsets_length_le s r)
  obtain ⟨m, hstore, hwrites⟩ := storeOp_scanned hleaves hpass hvalid hmap
  have hrun : afiltOp r s = .ok () { s with dp := e, mem := m } := by
    rw [afiltOp_eq_scan hread, op_bind_ok hscan, hstore]
  exact ⟨_, exec_of_ok hrun, sameButData_of_datapath s e m, hleaves, hresid, hwrites⟩

/-! ## The reference among the candidates -/

theorem mem_square {r : Nat} {o : Int × Int} : o ∈ square r ↔ o.1.natAbs ≤ r ∧ o.2.natAbs ≤ r := by
  refine ⟨natAbs_le_of_mem_square, fun ⟨hx, hy⟩ => ?_⟩
  have hcolumn : ∃ i : Nat, i < 2 * r + 1 ∧ o.1 = (i : Int) - r := ⟨(o.1 + r).toNat, by omega, by omega⟩
  have hrow : ∃ j : Nat, j < 2 * r + 1 ∧ o.2 = (j : Int) - r := ⟨(o.2 + r).toNat, by omega, by omega⟩
  obtain ⟨i, hi, hi'⟩ := hcolumn
  obtain ⟨j, hj, hj'⟩ := hrow
  simp only [square, List.bind_eq_flatMap, List.pure_def, List.mem_flatMap, List.mem_map,
    List.mem_singleton, List.mem_range]
  exact ⟨_, ⟨j, hj, rfl⟩, _, ⟨i, hi, rfl⟩, Prod.ext hi'.symm hj'.symm⟩

section
variable {s : State} {ca : Anchor} {o : Int × Int} {os : List (Int × Int)}

/-- The candidate at the place of the reference is the reference, at distance 0. -/
theorem candPasses_of_reference (hthr : 1 ≤ s.dp.thr.toNat) (href : ∃ ref, candBlk s .src .b 0 0 = .ok ref)
    (hx : (anchorPos s ca).1 + o.1 = (anchorPos s .b).1) (hy : (anchorPos s ca).2 + o.2 = (anchorPos s .b).2) :
    candPasses s .src ca o = true := by
  obtain ⟨ref, href⟩ := href
  have hsame : candBlk s .src ca o.1 o.2 = .ok ref := by
    rw [← href, candBlk, candBlk, hx, hy, Int.add_zero, Int.add_zero]
  have hzero : candSad s .src ca o = 0 := by
    simp only [candSad, href, hsame, sad4x4_eq_blockDistance, blockDistance_self]
  rw [candPasses, hzero]
  exact decide_eq_true hthr

theorem passCount_pos {cp : Plane} (ho : o ∈ os) (hpasses : candPasses s cp ca o = true) :
    0 < passCount s cp ca os :=
  List.length_pos_of_mem (List.mem_filter.2 ⟨ho, hpasses⟩)

end

/-- Settles O43: the offset from the candidates' anchor to the base anchor is among the candidates. -/
theorem selfCandidateGuaranteesWeight : Obligations.SelfCandidateGuaranteesWeight := by
  intro s r hthr href
  refine ⟨fun hx hy => ?near, ?base, fun hx hy => ?equal⟩
  case near =>
    have hself := candPasses_of_reference (ca := .s)
      (o := ((s.ag.baseX.toNat : Int) - s.ag.searchX.toNat, (s.ag.baseY.toNat : Int) - s.ag.searchY.toNat))
      hthr href (add_sub_cancel _ _) (add_sub_cancel _ _)
    exact passCount_pos (mem_square.2 ⟨hx, hy⟩) hself
  case base =>
    have hself : candPasses s .src .b (0, 0) = true :=
      candPasses_of_reference hthr href (Int.add_zero _) (Int.add_zero _)
    have hsquare : square 0 = [(0, 0)] := by decide
    rw [passCount, hsquare, List.filter_singleton, hself]
    rfl
  case equal =>
    have horigin : (0, 0) ∈ ring 0 ++ ring 1 := by decide
    have hself : candPasses s .src .s (0, 0) = true :=
      candPasses_of_reference hthr href (by simp [anchorPos, hx]) (by simp [anchorPos, hy])
    exact passCount_pos ((nearRings_prefix_afiltOffsets s r).subset horigin) hself

end Sys2Proof.Machine

/-! # The address generator

`AGSTART`, `AGNEXT` and `AGCLAMP` have one equation for each outcome (`agstartOp_ok` and its like); what is left
to say is that the coordinates fit their registers and that the anchors of a walk keep inside the plane
(45_scan_driver.md R200 to R207). -/

namespace Sys2Proof.Machine

/-! ## The three operations -/

theorem walkStart_fits {g : Geometry} {k : Nat} (hk : k < 16) :
    (BitVec.ofNat 32 (walkStart g k).1).toNat = (walkStart g k).1 ∧
      (BitVec.ofNat 32 (walkStart g k).2).toNat = (walkStart g k).2 := by
  constructor <;> refine Nat.mod_eq_of_lt ?_ <;> cases g <;> simp only [walkStart] <;> omega

/-- Settles O44: the two ways in which `agstartOp_ok` ends, and the refusal. -/
theorem agstartStartsTheWalk : Obligations.AgstartStartsTheWalk := by
  intro g k s hk
  refine ⟨fun hgeom => exec_of_error (agstartOp_error hgeom), fun hgeom => ?fits⟩
  have hlt := walkOk_lt hk
  obtain ⟨hx, hy⟩ := walkStart_fits (g := g) hlt
  have hagk : (BitVec.ofNat 4 k).toNat = k := Nat.mod_eq_of_lt hlt
  have hrun := agstartOp_ok hgeom
  dsimp only at hrun
  split at hrun
  case isTrue hfirst =>
    exact ⟨_, exec_of_ok hrun, rfl, rfl, hagk, hx, hy, by rw [hfirst]; rfl,
      fun _ => clamped_agclamp _ g, nofun⟩
  case isFalse hnone =>
    exact ⟨_, exec_of_ok hrun, rfl, rfl, hagk, hx, hy, by rw [Bool.eq_false_iff.2 hnone]; rfl, nofun,
      fun _ => ⟨rfl, rfl, rfl, rfl⟩⟩

/-- A move writes the nominal position and the anchors only: `AGDONE` was 0 before it. -/
theorem enterTile_eq {s : State} (hdone : s.ag.agdone = false) (g : Geometry) (x y : Nat) :
    let t := enterTile s g x y
    t = (s.setTile t.ag.tx t.ag.ty).setAnchors t.ag.searchX t.ag.searchY t.ag.baseX t.ag.baseY := by
  simp [enterTile, agclamp, State.setAgdone, State.setTile, State.setAnchors, hdone]

/-- Settles O45: the three ways in which `agnextOp_ok` ends, the refusal, and a walk that is done. -/
theorem agnextStepsTheWalk : Obligations.AgnextStepsTheWalk := by
  intro s g k inRow inColumn
  have hrun := fun hdone hgeom => exec_of_ok (i := .agnext) (agnextOp_ok (s := s) hdone hgeom)
  refine ⟨fun hdone => exec_of_ok (agnextOp_done hdone),
    fun hdone hgeom => exec_of_error (agnextOp_error hdone hgeom),
    fun hdone hgeom hrow hcolumn => ?ends, fun hdone hgeom hmove => ?moves⟩
  case ends =>
    exact (hrun hdone hgeom).trans
      (by rw [if_neg (Bool.eq_false_iff.1 hrow), if_neg (Bool.eq_false_iff.1 hcolumn)])
  case moves =>
    cases hrow : inRow with
    | true =>
      exact ⟨_, (hrun hdone hgeom).trans (congrArg _ (if_pos hrow)), toNat_ofNat_of_walkCont hrow,
        Nat.mod_eq_of_lt s.ag.ty.isLt, clamped_agclamp _ g, enterTile_eq hdone g _ _⟩
    | false =>
      have hcolumn : inColumn = true := hmove.resolve_left (Bool.eq_false_iff.1 hrow)
      exact ⟨_, (hrun hdone hgeom).trans
          (congrArg _ ((if_neg (Bool.eq_false_iff.1 hrow)).trans (if_pos hcolumn))),
        (walkStart_fits s.ag.agk.isLt).1, toNat_ofNat_of_walkCont hcolumn, clamped_agclamp _ g,
        enterTile_eq hdone g _ _⟩

/-- Settles O46: both outcomes of `AGCLAMP`. -/
theorem agclampPlacesTheAnchors : Obligations.AgclampPlacesTheAnchors := by
  intro g k s hk
  refine ⟨fun hgeom => exec_of_error (agclampOp_error hgeom), fun hgeom => ?_⟩
  exact ⟨_, exec_of_ok (agclampOp_ok hgeom), clamped_agclamp _ g, Nat.mod_eq_of_lt (walkOk_lt hk), rfl⟩

/-! ## The bounds of the anchors -/

/-- A position at or past the start of a walk and within its loop bound, on both axes. -/
theorem inWalk_iff {s : State} {g : Geometry} {k : Nat} :
    inWalk s g k = true ↔ (walkStart g k).1 ≤ s.ag.tx.toNat ∧ (walkStart g k).2 ≤ s.ag.ty.toNat ∧
      walkCont g s.ag.tx.toNat s.cfg.width.toNat = true ∧
      walkCont g s.ag.ty.toNat s.cfg.height.toNat = true := by
  simp [inWalk, and_assoc]

/-- Settles O47: on each axis the clamps of R200 and the bound of the loop leave the room of R207. -/
theorem anchorsStayInBounds : Obligations.AnchorsStayInBounds := by
  intro s g k hgeom hwalk hclamped r bound
  obtain ⟨hx0, hy0, hx, hy⟩ := inWalk_iff.1 hwalk
  obtain ⟨hsx, hsy, hbx, hby⟩ := hclamped
  simp only [geomOk, Bool.and_eq_true] at hgeom
  obtain ⟨⟨-, hw⟩, hh⟩ := hgeom
  rw [hsx, hsy, hbx, hby]
  cases g with
  | p1 =>
    simp only [dimOk, decide_eq_true_eq, searchAnchor, clampNat, baseAnchor, bound, r] at *
    omega
  | p2a =>
    simp only [dimOk, walkStart, walkCont, decide_eq_true_eq, searchAnchor, clampNat, baseAnchor, bound] at *
    omega
  | p2b =>
    simp only [dimOk, walkStart, walkCont, decide_eq_true_eq, searchAnchor, clampNat, baseAnchor, bound] at *
    omega

/-! ## The tiles of a walk -/

section
variable {s : State} {g : Geometry} {k n : Nat}

/-- The tile that a walk stands at is fixed by the number of tiles behind it (R206). -/
theorem atTile_of_walkAt (hat : WalkAt s g k n) (hn : n < walkTotal g k s.cfg) :
    AtTile s g k (n % tilesAcross g k s.cfg) (n / tilesAcross g k s.cfg) := by
  obtain ⟨i, j, htile, rfl⟩ | ⟨-, rfl⟩ := hat
  · have hi := htile.column
    have hmod : (j * tilesAcross g k s.cfg + i) % tilesAcross g k s.cfg = i := by
      rw [Nat.mul_add_mod', Nat.mod_eq_of_lt hi]
    have hdiv : (j * tilesAcross g k s.cfg + i) / tilesAcross g k s.cfg = j := by
      rw [Nat.mul_comm, Nat.mul_add_div hi.pos, Nat.div_eq_of_lt hi, Nat.add_zero]
    rwa [hmod, hdiv]
  · exact absurd hn (lt_irrefl _)

theorem agdone_of_walkAt (hat : WalkAt s g k (walkTotal g k s.cfg)) : s.ag.agdone = true := by
  obtain ⟨i, j, htile, hm⟩ | ⟨hdone, -⟩ := hat
  · exact absurd (atTile_lt_total htile) (Nat.not_lt.2 hm.le)
  · exact hdone

end

/-- A faulted unit executes nothing more (60_exceptions.md R258). -/
theorem execSeq_faulted {s : State} (h : s.flt.fault = true) (is : List Instr) : execSeq is s = s := by
  cases is with
  | nil => rfl
  | cons i is => exact if_pos h

theorem execSeq_append (is js : List Instr) (s : State) :
    execSeq (is ++ js) s = execSeq js (execSeq is s) := by
  induction is generalizing s with
  | nil => rfl
  | cons i is ih =>
    cases hs : s.flt.fault with
    | true => rw [execSeq_faulted hs, execSeq_faulted hs, execSeq_faulted hs]
    | false =>
      obtain ⟨t, ht⟩ := exec_total i s
      rw [List.cons_append, execSeq_cons_next hs ht, execSeq_cons_next hs ht, ih]

/-- `AGSTART` and then `AGNEXT`, once for each tile that the walk leaves behind. -/
theorem execSeq_walk {s : State} {g : Geometry} {k n : Nat} (hs : Running s) (hk : walkOk g k = true)
    (hgeom : geomOk s.cfg g k = true) (hn : n ≤ walkTotal g k s.cfg) :
    ∃ ag, execSeq (.agstart g k :: List.replicate n .agnext) s = { s with ag := ag } ∧
      WalkAt { s with ag := ag } g k n := by
  induction n with
  | zero =>
    obtain ⟨ag, hstart, hat⟩ := agstartOp_walkAt hgeom (walkOk_lt hk)
    exact ⟨ag, execSeq_cons_next hs (exec_of_ok hstart), hat⟩
  | succ n ih =>
    obtain ⟨ag, hrun, hat⟩ := ih (by omega)
    have htile := atTile_of_walkAt hat hn
    have hmod := Nat.div_add_mod' n (tilesAcross g k s.cfg)
    obtain ⟨ag', hnext, hat'⟩ := agnextOp_walkAt (s := { s with ag := ag }) hgeom htile
    refine ⟨ag', ?_, hmod ▸ hat'⟩
    rw [List.replicate_succ', ← List.cons_append, execSeq_append, hrun]
    exact execSeq_cons_next hs (exec_of_ok hnext)

/-- Settles O48: after `n` times `AGNEXT` the walk has `n` tiles behind it. -/
theorem walksVisitTheirTiles : Obligations.WalksVisitTheirTiles := by
  intro g k s hs hk hgeom nx ny after
  refine ⟨fun n hn => ?visits, ?ends⟩
  case visits =>
    obtain ⟨ag, hrun, hat⟩ := execSeq_walk hs hk hgeom hn.le
    have htile := atTile_of_walkAt hat hn
    rw [show after n = _ from hrun]
    exact ⟨htile.agdone, hs, htile.tx, htile.ty⟩
  case ends =>
    obtain ⟨ag, hrun, hat⟩ := execSeq_walk hs hk hgeom (le_refl (walkTotal g k s.cfg))
    rw [show after (nx * ny) = _ from hrun]
    exact ⟨agdone_of_walkAt hat, hs⟩

end Sys2Proof.Machine

/-! # What a tile operation leaves alone

One pass over the kernels and the tile operations, for every outcome: they write datapath registers and, through
the lanes of the write-back, the base block; `TILE2A` writes an entry of the weight map besides
(45_scan_driver.md R210 to R215). -/

namespace Sys2Proof.Machine

/-- Only datapath registers, the base block and, where `map` holds, the weight map differ. -/
structure TileFrame (map : Prop) (s t : State) : Prop extends SameButData s t where
  bytes : ∀ a, OutsideBase s a → (map → OutsideWmap s.cfg a) → t.byteAt a = s.byteAt a

theorem laneAddr_congr {s t : State} (hcfg : t.cfg = s.cfg) (hag : t.ag = s.ag) (r c : Fin 4) :
    laneAddr t r c = laneAddr s r c := by
  simp only [laneAddr, baseLane, hcfg, hag]

theorem outsideBase_congr {s t : State} (hcfg : t.cfg = s.cfg) (hag : t.ag = s.ag) {a : Nat} :
    OutsideBase t a ↔ OutsideBase s a := by
  simp only [OutsideBase, laneAddr_congr hcfg hag]

theorem sameButData_refl (s : State) : SameButData s s := ⟨rfl, rfl, rfl, rfl, rfl, rfl, rfl⟩

theorem sameButData_trans {s t u : State} (h : SameButData s t) (h' : SameButData t u) : SameButData s u :=
  ⟨h'.cfg.trans h.cfg, h'.ag.trans h.ag, h'.tab.trans h.tab, h'.flt.trans h.flt, h'.plat.trans h.plat,
    h'.port.trans h.port, h'.reply.trans h.reply⟩

section
variable {map : Prop}

theorem tileFrame_frame : Frame (TileFrame map) where
  refl s := ⟨sameButData_refl s, fun _ _ _ => rfl⟩
  trans s t u h h' := ⟨sameButData_trans h.toSameButData h'.toSameButData, fun a ha hmap =>
    (h'.bytes a ((outsideBase_congr h.cfg h.ag).2 ha) (by rwa [h.cfg])).trans (h.bytes a ha hmap)⟩

theorem tileFrame_datapath (s : State) (d : DataRegs) : TileFrame map s { s with dp := d } :=
  ⟨sameButData_of_datapath s d s.mem, fun _ _ _ => rfl⟩

theorem tileFrame_bind {α β : Type} {x : Op α} {f : α → Op β} (hx : Keeps (TileFrame map) x)
    (hf : ∀ a, Keeps (TileFrame map) (f a)) : Keeps (TileFrame map) (x >>= f) :=
  keeps_bind tileFrame_frame hx hf

theorem tileFrame_look {α β : Type} {f : State → Except Cause α} {g : α → Op β}
    (hg : ∀ a, Keeps (TileFrame map) (g a)) : Keeps (TileFrame map) (look f >>= g) :=
  tileFrame_bind (keeps_look tileFrame_frame f) hg

theorem tileFrame_get {β : Type} {g : State → Op β} (hg : ∀ s, Keeps (TileFrame map) (g s)) :
    Keeps (TileFrame map) (get >>= g) :=
  tileFrame_bind (keeps_get tileFrame_frame) hg

theorem tileFrame_pure {α : Type} (a : α) : Keeps (TileFrame map) (pure a : Op α) :=
  keeps_pure tileFrame_frame a

theorem tileFrame_raise {α : Type} (c : Cause) : Keeps (TileFrame map) (raise c : Op α) :=
  keeps_raise tileFrame_frame c

/-- What a tile operation that completed leaves alone. -/
theorem tileFrame_of_ok {op : Op Unit} {s t : State} (h : Keeps (TileFrame map) op)
    (hrun : op s = .ok () t) : TileFrame map s t := by
  have hend := h s
  rwa [hrun] at hend

/-! ## The scan -/

theorem tileFrame_clraOp : Keeps (TileFrame map) clraOp := keeps_modify fun s => tileFrame_datapath s _

theorem tileFrame_sadOp (rp : Plane) (ra : Anchor) (cp : Plane) (ca : Anchor) (dx dy : Int) :
    Keeps (TileFrame map) (sadOp rp ra cp ca dx dy) :=
  tileFrame_look fun _ => tileFrame_look fun _ => keeps_modify fun s => tileFrame_datapath s _

theorem tileFrame_cmpOp : Keeps (TileFrame map) cmpOp := by
  intro s
  rw [cmpOp_eq]
  split
  · split
    · exact tileFrame_frame.refl s
    · exact tileFrame_datapath s _
  · exact tileFrame_datapath s _

theorem tileFrame_ssaddOp : Keeps (TileFrame map) ssaddOp := by
  refine keeps_get_bind fun s => ?_
  split
  · exact tileFrame_frame.refl s
  · exact tileFrame_datapath s _

theorem tileFrame_accblkOp (cp : Plane) (ca : Anchor) (dx dy : Int) :
    Keeps (TileFrame map) (accblkOp cp ca dx dy) := by
  refine keeps_get_bind fun s => ?_
  split
  · refine tileFrame_look (fun b => keeps_get_bind fun u => ?_) s
    split
    · exact tileFrame_datapath u _
    · exact tileFrame_frame.refl u
  · exact tileFrame_frame.refl s

theorem tileFrame_candOp (cp : Plane) (ca : Anchor) (sum : Bool) (dx dy : Int) :
    Keeps (TileFrame map) (candOp cp ca sum dx dy) := by
  have hrest : Keeps (TileFrame map) (cmpOp >>= fun _ => accblkOp cp ca dx dy) :=
    tileFrame_bind tileFrame_cmpOp fun _ => tileFrame_accblkOp cp ca dx dy
  refine tileFrame_bind (tileFrame_sadOp _ _ _ _ _ _) fun _ => ?_
  cases sum with
  | false => exact hrest
  | true => exact tileFrame_bind tileFrame_ssaddOp fun _ => hrest

theorem tileFrame_scanOp (cp : Plane) (ca : Anchor) (sum : Bool) (os : List (Int × Int)) :
    Keeps (TileFrame map) (scanOp cp ca sum os) := by
  induction os with
  | nil => exact tileFrame_pure _
  | cons o os ih => exact tileFrame_bind (tileFrame_candOp cp ca sum o.1 o.2) fun _ => ih

/-! ## The write-back -/

/-- A lane writes its own address only. -/
theorem tileFrame_wrpx (s : State) (r c : Fin 4) (v : Byte) :
    TileFrame map s (endState (wrpx (baseLane s r c).1 (baseLane s r c).2 v s)) := by
  obtain hnone | ⟨hin, hle, hput⟩ := wrpx_frame (baseLane s r c).1 (baseLane s r c).2 v s
  · rw [hnone]
    exact tileFrame_frame.refl s
  · rw [hput]
    refine ⟨sameButData_of_datapath s s.dp _, fun a ha _ => byteAt_memPut_other s _ a v fun heq => ?_⟩
    exact ha (r, c) (mem_lanes _) ((sampleAddr_ok_iff _ _ _ _ _).2 ⟨hin, hle, heq⟩)

/-- What pseudocode leaves from one state, and what follows leaves from where that ends. -/
theorem tileFrame_bind_at {α β : Type} {x : Op α} {f : α → Op β} {s : State}
    (hx : TileFrame map s (endState (x s)))
    (hf : ∀ a t, TileFrame map s t → TileFrame map t (endState (f a t))) :
    TileFrame map s (endState ((x >>= f) s)) := by
  rw [op_bind]
  cases h : x s with
  | error c t => rwa [h] at hx
  | ok a t =>
    rw [h] at hx
    exact tileFrame_frame.trans _ _ _ hx (hf a t hx)

theorem tileFrame_storeLane (q : Nat) (r c : Fin 4) : Keeps (TileFrame map) (storeLane q r c) :=
  keeps_get_bind fun s => tileFrame_bind_at (tileFrame_wrpx s r c _) fun _ t _ => tileFrame_pure 0 t

theorem tileFrame_blendLane (q : Nat) (r c : Fin 4) : Keeps (TileFrame map) (blendLane q r c) := by
  refine keeps_get_bind fun s => ?_
  cases h : px s .dst (baseLane s r c).1 (baseLane s r c).2 with
  | error e =>
    rw [look_bind_error h]
    exact tileFrame_frame.refl s
  | ok e =>
    rw [look_bind_ok h]
    exact tileFrame_bind_at (tileFrame_wrpx s r c _) fun _ t _ => tileFrame_pure _ t

theorem tileFrame_storeOp : Keeps (TileFrame map) storeOp :=
  tileFrame_look fun q => tileFrame_bind (keeps_eachLane tileFrame_frame (tileFrame_storeLane q) lanes)
    fun _ => tileFrame_pure _

theorem tileFrame_blendOp : Keeps (TileFrame map) blendOp :=
  tileFrame_look fun q => tileFrame_bind (keeps_eachLane tileFrame_frame (tileFrame_blendLane q) lanes)
    fun _ => tileFrame_pure _

theorem tileFrame_diffOp : Keeps (TileFrame map) diffOp :=
  tileFrame_look fun q => tileFrame_bind (keeps_eachLane tileFrame_frame (tileFrame_blendLane q) lanes)
    fun _ => keeps_modify fun s => tileFrame_datapath s _

theorem tileFrame_packOp (alpha : Nat) : Keeps (TileFrame map) (packOp alpha) :=
  keeps_modify fun s => tileFrame_datapath s _

/-! ## Kernels -/

theorem tileFrame_kernel {writeBack : Op Unit} (hwb : Keeps (TileFrame map) writeBack) (cp : Plane)
    (ca : Anchor) (sum : Bool) (os : List (Int × Int)) :
    Keeps (TileFrame map) (clraOp >>= fun _ => scanOp cp ca sum os >>= fun _ => writeBack) :=
  tileFrame_bind tileFrame_clraOp fun _ => tileFrame_bind (tileFrame_scanOp cp ca sum os) fun _ => hwb

theorem tileFrame_filtOp (r : Nat) : Keeps (TileFrame map) (filtOp r) :=
  tileFrame_kernel tileFrame_storeOp _ _ _ _

theorem tileFrame_afiltOp (r : Nat) : Keeps (TileFrame map) (afiltOp r) := by
  have hscan := fun d => tileFrame_scanOp (map := map) .src .s true (ring d)
  refine tileFrame_kernel (tileFrame_get fun _ => keeps_ite ?wide tileFrame_storeOp) _ _ _ _
  exact tileFrame_bind (hscan 2) fun _ => tileFrame_get fun _ =>
    keeps_ite (tileFrame_bind (hscan 3) fun _ => tileFrame_storeOp) tileFrame_storeOp

theorem tileFrame_ofiltOp (r : Nat) (cp : Plane) : Keeps (TileFrame map) (ofiltOp r cp) :=
  tileFrame_kernel tileFrame_blendOp _ _ _ _

theorem tileFrame_dfiltOp : Keeps (TileFrame map) dfiltOp := tileFrame_kernel tileFrame_diffOp _ _ _ _

/-! ## Tiles -/

theorem tileFrame_bsadOp (cp : Plane) : Keeps (TileFrame map) (bsadOp cp) := by
  refine tileFrame_look fun _ => tileFrame_look fun _ => keeps_modify fun s => ?_
  split <;> exact tileFrame_datapath s _

theorem tileFrame_devlOp : Keeps (TileFrame map) devlOp :=
  tileFrame_get fun _ => tileFrame_look fun _ => tileFrame_look fun _ => tileFrame_look fun _ =>
    tileFrame_look fun _ => keeps_modify fun s => tileFrame_datapath s _

theorem tileFrame_temporalBlend (r k : Nat) (cp : Plane) : Keeps (TileFrame map) (temporalBlend r k cp) :=
  tileFrame_bind (tileFrame_packOp k) fun _ => tileFrame_ofiltOp r cp

theorem tileFrame_tile1Temporal (r : Nat) : Keeps (TileFrame map) (tile1Temporal r) := by
  have hblend := tileFrame_temporalBlend (map := map) r
  have hskip : Keeps (TileFrame map) (pure () : Op Unit) := tileFrame_pure ()
  refine tileFrame_bind (tileFrame_filtOp 0) fun _ =>
    tileFrame_get fun _ => tileFrame_get fun _ => keeps_ite ?before ?notBefore
  case before =>
    exact tileFrame_bind (hblend 1 .prev) fun _ =>
      tileFrame_get fun _ => tileFrame_get fun _ => keeps_ite (hblend 2 .next) hskip
  case notBefore =>
    exact tileFrame_get fun _ => tileFrame_get fun _ => keeps_ite (hblend 1 .next) hskip

theorem tileFrame_tile1Op : Keeps (TileFrame map) tile1Op := by
  have hthresh : Keeps (TileFrame map) threshOp := keeps_modify fun s => tileFrame_datapath s _
  have hdmin : Keeps (TileFrame map) dminOp := keeps_modify fun s => tileFrame_datapath s _
  refine tileFrame_get fun _ => keeps_ite (tileFrame_raise _)
    (tileFrame_bind tileFrame_devlOp fun _ => keeps_ite ?temporal ?spatial)
  case temporal =>
    exact tileFrame_bind (tileFrame_bsadOp _) fun _ => tileFrame_bind (tileFrame_bsadOp _) fun _ =>
      tileFrame_bind hdmin fun _ => tileFrame_bind hthresh fun _ => tileFrame_tile1Temporal _
  case spatial =>
    exact tileFrame_bind hthresh fun _ => keeps_ite (tileFrame_afiltOp _) (tileFrame_filtOp _)

/-- Memory outside the weight map is not written through an entry of it. -/
theorem tileFrame_memWrite {s : State} {a : Nat} (ha : ¬ OutsideWmap s.cfg a) (v : Byte) :
    TileFrame True s (endState (memWrite a v s)) := by
  unfold memWrite
  split
  · exact ⟨sameButData_of_datapath s s.dp _, fun b _ hb =>
      byteAt_memPut_other s a b v fun heq => ha (heq ▸ hb trivial)⟩
  · exact tileFrame_frame.refl s

theorem tileFrame_tile2aOp : Keeps (TileFrame True) tile2aOp := by
  intro s
  cases hentry : tileEntry s with
  | error c =>
    rw [tile2aOp, look_bind_error hentry]
    exact tileFrame_frame.refl s
  | ok a =>
    rw [tile2aOp, look_bind_ok hentry, op_bind_ok (op_get s)]
    refine tileFrame_bind_at (tileFrame_packOp _ s) fun _ t ht =>
      tileFrame_bind_at (tileFrame_dfiltOp t) fun _ u hu => tileFrame_memWrite ?_ _
    rw [hu.cfg, ht.cfg]
    exact tileEntry_not_outside hentry

theorem tileFrame_tile2bOp : Keeps (TileFrame map) tile2bOp :=
  have hrefine : ∀ k, Keeps (TileFrame map) (packOp k >>= fun _ => ofiltOp 2 .src) :=
    fun k => tileFrame_bind (tileFrame_packOp k) fun _ => tileFrame_ofiltOp 2 .src
  tileFrame_get fun _ => keeps_ite
    (tileFrame_look fun _ => tileFrame_look fun _ => keeps_ite (hrefine _) (tileFrame_pure _))
    (tileFrame_raise _)

end

end Sys2Proof.Machine

/-! # Walks whose tiles may fail

`walkOp_ends` is the induction over the tiles of a walk for every outcome of the tile operation: what holds with
`m` tiles behind the walk is carried on by a tile that completes, and a tile that raises ends the walk in a state
of its own. -/

namespace Sys2Proof.Machine

/-! ## Both ends of pseudocode -/

section
variable {α β : Type} {op x : Op α} {f : α → Op β} {s t : State} {Q Q' : State → Prop}
  {E E' : Cause → State → Prop}

/-- From `s`, pseudocode completes in a state of `Q` or raises in a state of `E`. -/
def Ends (op : Op α) (s : State) (Q : State → Prop) (E : Cause → State → Prop) : Prop :=
  match op s with
  | .ok _ t => Q t
  | .error c t => E c t

theorem ends_of_ok {a : α} (h : op s = .ok a t) (ht : Q t) : Ends op s Q E := by
  rwa [Ends, h]

theorem ends_of_error {c : Cause} (h : op s = .error c t) (ht : E c t) : Ends op s Q E := by
  rwa [Ends, h]

theorem ends_ok {a : α} (h : Ends op s Q E) (hrun : op s = .ok a t) : Q t := by
  rwa [Ends, hrun] at h

theorem ends_imp (h : Ends op s Q E) (hQ : ∀ t, Q t → Q' t) (hE : ∀ c t, E c t → E' c t) :
    Ends op s Q' E' := by
  unfold Ends at *
  split at h
  · exact hQ _ h
  · exact hE _ _ h

theorem ends_bind (hx : Ends x s Q E) (hf : ∀ a t, Q t → Ends (f a) t Q' E) : Ends (x >>= f) s Q' E := by
  unfold Ends at hx
  cases h : x s with
  | ok a t =>
    rw [h] at hx
    rw [Ends, op_bind_ok h]
    exact hf a t hx
  | error c t =>
    rw [h] at hx
    exact ends_of_error (op_bind_error h) hx

/-- One property of the state, whatever the outcome. -/
theorem ends_same_iff : Ends op s Q (fun _ => Q) ↔ Q (endState (op s)) := by
  unfold Ends
  cases op s <;> rfl

theorem ends_of_keeps {R : State → State → Prop} (h : Keeps R op) (s : State) :
    Ends op s (R s) fun _ => R s :=
  ends_same_iff.2 (h s)

end

/-! ## The induction over the tiles -/

/-- What a tile operation does at each tile of a walk, with `m` tiles behind the walk in a state of `I m`: it
raises in a state of `E`, or completes where `AGNEXT` leads to a state of `I (m + 1)`. -/
structure WalkSteps (c : CfgRegs) (g : Geometry) (k : Nat) (tile : Op Unit) (I : Nat → State → Prop)
    (E : Cause → State → Prop) : Prop where
  cfg : ∀ {m s}, I m s → s.cfg = c
  tile : ∀ {s i j}, AtTile s g k i j → I (j * tilesAcross g k c + i) s →
    Ends tile s (fun t => t.cfg = s.cfg ∧ t.ag = s.ag ∧
      ∀ ag, agnextOp t = .ok () { t with ag := ag } →
        I (j * tilesAcross g k c + i + 1) { t with ag := ag }) E

section
variable {c : CfgRegs} {g : Geometry} {k : Nat} {tile : Op Unit} {I : Nat → State → Prop}
  {E : Cause → State → Prop} (hI : WalkSteps c g k tile I E) (hgeom : geomOk c g k = true)
include hI hgeom

theorem walkTiles_ends {n m : Nat} {s : State} (hat : WalkAt s g k m) (hs : I m s)
    (hn : walkTotal g k c ≤ m + n) :
    Ends (walkTiles tile n) s (fun t => I (walkTotal g k c) t ∧ t.ag.agdone = true) E := by
  induction n generalizing m s with
  | zero =>
    obtain rfl := hI.cfg hs
    obtain ⟨i, j, htile, rfl⟩ | ⟨hdone, rfl⟩ := hat
    · exact absurd (atTile_lt_total htile) hn.not_gt
    · exact ends_of_ok (walkTiles_done hdone 0) ⟨hs, hdone⟩
  | succ n ih =>
    obtain rfl := hI.cfg hs
    obtain ⟨i, j, htile, rfl⟩ | ⟨hdone, rfl⟩ := hat
    · rw [Ends, walkTiles_step htile.agdone]
      refine ends_bind (hI.tile htile hs) fun _ t ⟨hcfg, hag, hstep⟩ => ?_
      obtain ⟨ag, hnext, hat⟩ := agnextOp_walkAt (by rwa [hcfg]) (atTile_congr htile hag hcfg)
      rw [show tilesAcross g k t.cfg = tilesAcross g k s.cfg by rw [hcfg]] at hat
      rw [Ends, op_bind_ok hnext]
      exact ih hat (hstep ag hnext) (by omega)
    · exact ends_of_ok (walkTiles_done hdone _) ⟨hs, hdone⟩

theorem walkOp_ends (hk : k < 16) {s : State} (hcfg : s.cfg = c)
    (hs : ∀ ag, agstartOp g k s = .ok () { s with ag := ag } → I 0 { s with ag := ag }) :
    Ends (walkOp g k tile) s (fun t => I (walkTotal g k c) t ∧ t.ag.agdone = true) E := by
  subst hcfg
  obtain ⟨ag, hstart, hat⟩ := agstartOp_walkAt hgeom hk
  rw [Ends, walkOp, op_bind_ok hstart]
  exact walkTiles_ends hI hgeom hat (hs ag hstart)
    (by rw [Nat.zero_add]; exact walkTotal_le_tileCount (c := s.cfg))

end

/-- A walk whose geometry does not fit ends at its start. -/
theorem walkOp_error {g : Geometry} {k : Nat} {tile : Op Unit} {s : State} (h : geomOk s.cfg g k = false) :
    walkOp g k tile s = .error .cfg s :=
  op_bind_error (agstartOp_error h)

end Sys2Proof.Machine

/-! # Pass 2 keeps the edges

The anchors of `P2A` and `P2B` keep the base block one sample inside the plane (45_scan_driver.md R207). With
strides that fit, different samples of the plane have different addresses, so no tile writes to an edge. -/

namespace Sys2Proof.Machine

/-! ## The base block inside the edges -/

/-- The base block touches no edge of the plane. -/
structure InnerBase (s : State) : Prop where
  left : 1 ≤ s.ag.baseX.toNat
  right : s.ag.baseX.toNat + 5 ≤ s.cfg.width.toNat
  top : 1 ≤ s.ag.baseY.toNat
  bottom : s.ag.baseY.toNat + 5 ≤ s.cfg.height.toNat

theorem inWalk_of_atTile {s : State} {g : Geometry} {k i j : Nat} (h : AtTile s g k i j) :
    inWalk s g k = true := by
  refine inWalk_iff.2 ⟨?_, ?_, ?_, ?_⟩
  · rw [h.tx]
    exact Nat.le_add_right _ _
  · rw [h.ty]
    exact Nat.le_add_right _ _
  · rw [h.tx]
    exact (walkCont_across_iff i).2 h.column
  · rw [h.ty]
    exact (walkCont_down_iff j).2 h.row

theorem innerBase_of_atTile {s : State} {g : Geometry} {k i j : Nat} (hg : g = .p2a ∨ g = .p2b)
    (hgeom : geomOk s.cfg g k = true) (h : AtTile s g k i j) : InnerBase s := by
  have hbounds := anchorsStayInBounds s g k hgeom (inWalk_of_atTile h) h.clamped
  obtain rfl | rfl := hg
  · obtain ⟨⟨-, hl, hr⟩, -, ht, hb⟩ := hbounds
    exact ⟨by omega, hr, by omega, hb⟩
  · obtain ⟨⟨-, -, hl, hr, -⟩, -, -, ht, hb, -⟩ := hbounds
    exact ⟨hl, hr, ht, hb⟩

/-- A sample of the plane in its first or last column or row. -/
structure EdgeSample (c : CfgRegs) (x y : Nat) : Prop where
  column : x < c.width.toNat
  row : y < c.height.toNat
  edge : x = 0 ∨ y = 0 ∨ x + 1 = c.width.toNat ∨ y + 1 = c.height.toNat

theorem outsideBase_of_edge {s : State} (hplane : planeOk s.cfg false = true) (hbase : InnerBase s) {x y : Nat}
    (h : EdgeSample s.cfg x y) : OutsideBase s (linearAddr s.cfg .dst x y) := by
  intro ⟨r, c⟩ _ haddr
  obtain ⟨hin, -, heq⟩ := (sampleAddr_ok_iff _ _ _ _ _).1 haddr
  simp only [planeOk, Bool.and_eq_true, decide_eq_true_eq] at hplane
  obtain ⟨⟨-, hstride⟩, -⟩ := hplane
  obtain ⟨hl, hr, ht, hb⟩ := hbase
  obtain ⟨hx, hy, hedge⟩ := h
  have hsame : y * s.cfg.dstStride.toNat + x =
      (s.ag.baseY.toNat + r.val) * s.cfg.dstStride.toNat + (s.ag.baseX.toNat + c.val) := by
    simp only [linearAddr, planeBase, planeStride, baseLane, Int.toNat_natCast] at heq
    omega
  obtain ⟨hrow, hcolumn⟩ := raster_injective (hx.trans_le hstride) (by omega) hsame
  omega

/-! ## The passes -/

/-- The bytes of the edges, those of the weight map left out where `map` holds. -/
def EdgeByte (map : Prop) (c : CfgRegs) (a : Nat) : Prop :=
  (∃ x y, EdgeSample c x y ∧ linearAddr c .dst x y = a) ∧ (map → OutsideWmap c a)

/-- The bytes of the edges are as in `s`. -/
structure EdgesOf (map : Prop) (s t : State) : Prop where
  cfg : t.cfg = s.cfg
  bytes : SameBytes (EdgeByte map s.cfg) s t

/-- With strides that fit, the configuration and the bytes of the edges stay. -/
def EdgesKept (map : Prop) (s t : State) : Prop :=
  planeOk s.cfg false = true → EdgesOf map s t

section
variable {map : Prop}

theorem edgesOf_takeFault {s t : State} (h : EdgesOf map s t) (e : Cause) (w : Word) :
    EdgesOf map s (takeFault t e w) :=
  ⟨(takeFault_cfg t e w).trans h.cfg, fun a ha =>
    (byteAt_of_mem (takeFault_mem t e w) a).trans (h.bytes a ha)⟩

theorem edgesKept_frame : Frame (EdgesKept map) where
  refl _ _ := ⟨rfl, fun _ _ => rfl⟩
  trans s t u h h' hplane := by
    obtain ⟨hcfg, hbytes⟩ := h hplane
    obtain ⟨hcfg', hbytes'⟩ := h' (by rwa [hcfg])
    exact ⟨hcfg'.trans hcfg, fun a ha => (hbytes' a (by rwa [hcfg])).trans (hbytes a ha)⟩

theorem keepsEdges_pass2Open : Keeps (EdgesKept map) pass2Open := by
  refine keeps_get_bind fun s => ?_
  split
  · exact fun _ => ⟨rfl, fun _ _ => rfl⟩
  · exact edgesKept_frame.refl s

theorem edgesOf_walkSteps {s : State} {g : Geometry} {k : Nat} {tile : Op Unit} (hg : g = .p2a ∨ g = .p2b)
    (hgeom : geomOk s.cfg g k = true) (hplane : planeOk s.cfg false = true)
    (htile : Keeps (TileFrame map) tile) :
    WalkSteps s.cfg g k tile (fun _ => EdgesOf map s) fun _ => EdgesOf map s where
  cfg h := h.cfg
  tile {u i j} hat hu := by
    have hbase := innerBase_of_atTile hg (by rwa [hu.cfg]) hat
    have hkept : ∀ t, TileFrame map u t → EdgesOf map s t := fun t ht => by
      refine ⟨ht.cfg.trans hu.cfg, fun a ha => (ht.bytes a ?_ ?_).trans (hu.bytes a ha)⟩
      · obtain ⟨⟨x, y, hedge, rfl⟩, -⟩ := ha
        rw [← hu.cfg] at hplane hedge ⊢
        exact outsideBase_of_edge hplane hbase hedge
      · rw [hu.cfg]
        exact ha.2
    exact ends_imp (ends_of_keeps htile u) (fun t ht => ⟨ht.cfg, ht.ag, fun _ _ =>
      ⟨(hkept t ht).cfg, (hkept t ht).bytes⟩⟩) fun _ t ht => hkept t ht

theorem keepsEdges_walkOp {g : Geometry} {k : Nat} {tile : Op Unit} (hg : g = .p2a ∨ g = .p2b) (hk : k < 16)
    (htile : Keeps (TileFrame map) tile) : Keeps (EdgesKept map) (walkOp g k tile) := by
  intro s
  cases hgeom : geomOk s.cfg g k with
  | false =>
    rw [walkOp_error hgeom]
    exact edgesKept_frame.refl s
  | true =>
    intro hplane
    refine ends_same_iff.1 (ends_imp (walkOp_ends (edgesOf_walkSteps hg hgeom hplane htile) hgeom hk rfl ?_)
      (fun _ => And.left) fun _ _ => id)
    exact fun ag _ => ⟨rfl, fun _ _ => rfl⟩

theorem keepsEdges_pass2aOp : Keeps (EdgesKept True) pass2aOp :=
  keeps_bind edgesKept_frame keepsEdges_pass2Open fun _ =>
    keepsEdges_walkOp (.inl rfl) (by decide) tileFrame_tile2aOp

theorem keepsEdges_sweepsOp {ks : List Nat} (hks : ∀ k ∈ ks, k < 16) :
    Keeps (EdgesKept False) (sweepsOp ks) := by
  induction ks with
  | nil => exact keeps_pure edgesKept_frame ()
  | cons k ks ih =>
    obtain ⟨hk, hrest⟩ := List.forall_mem_cons.1 hks
    exact keeps_bind edgesKept_frame (keepsEdges_walkOp (.inr rfl) hk tileFrame_tile2bOp) fun _ => ih hrest

theorem keepsEdges_pass2bOp : Keeps (EdgesKept False) pass2bOp :=
  keeps_bind edgesKept_frame keepsEdges_pass2Open fun _ => keepsEdges_sweepsOp (by decide)

end

theorem pass2Open_error {s : State} (h : planeOk s.cfg false = false ∨ wmapOk s.cfg = false) :
    pass2Open s = .error .cfg s := by
  have htest : (planeOk s.cfg false && wmapOk s.cfg) = false := Bool.and_eq_false_iff.2 h
  rw [pass2Open, op_bind_ok (op_get s), htest]
  rfl

theorem exec_pass2_error {i : Instr} {s : State} (hi : i = .pass2a ∨ i = .pass2b)
    (h : planeOk s.cfg false = false ∨ wmapOk s.cfg = false) :
    exec i s = .next (takeFault s .cfg (encode i)) := by
  obtain rfl | rfl := hi <;> exact exec_of_error (op_bind_error (pass2Open_error h))

/-- Settles O60: where the strides do not fit the pass is refused, and else every base block is off the
edges. -/
theorem pass2KeepsTheEdges : Obligations.Pass2KeepsTheEdges := by
  intro i s t hi hexec x hx y hy hedge hout
  cases hplane : planeOk s.cfg false with
  | false =>
    cases (exec_pass2_error hi (.inl hplane)).symm.trans hexec
    exact byteAt_of_mem (takeFault_mem s .cfg _) _
  | true =>
    have hbyte : EdgeByte (i = .pass2a) s.cfg (linearAddr s.cfg .dst x y) :=
      ⟨⟨x, y, ⟨hx, hy, hedge⟩, rfl⟩, hout⟩
    have hkept : Keeps (EdgesKept (i = .pass2a)) (opOf i) := by
      obtain rfl | rfl := hi
      · simpa [opOf] using keepsEdges_pass2aOp
      · simpa [opOf] using keepsEdges_pass2bOp
    have hedges := keeps_command hkept (fun _ _ e w h hplane => edgesOf_takeFault (h hplane) e w)
      ((exec_eq i s).symm.trans hexec)
    exact (hedges hplane).bytes _ hbyte

end Sys2Proof.Machine

/-! # Tiles of a ready plane

With the planes mapped, the table built and the room that the clamps leave, every read of a tile answers and
every store is accepted; the reference is among the candidates, so the count is not 0 (45_scan_driver.md R207,
R286, 44_filter_kernels.md R185). -/

namespace Sys2Proof.Machine

/-! ## What stays ready -/

section
variable {s t : State} {p : Plane}

theorem sameButScan_of_data (h : SameButData s t) : SameButScan s t :=
  ⟨h.cfg, h.tab, h.flt, h.plat, h.port, h.reply⟩

theorem running_of_sameButData (h : SameButData s t) (hs : Running s) : Running t := by
  rwa [Running, h.flt]

theorem sampleOk_congr (hcfg : t.cfg = s.cfg) (hplat : t.plat = s.plat) (x y : Int) :
    sampleOk t p x y = sampleOk s p x y := by
  simp only [sampleOk, hcfg, inMemDom_of_plat hplat]

theorem planeMapped_congr (hcfg : t.cfg = s.cfg) (hplat : t.plat = s.plat) (h : PlaneMapped s p) :
    PlaneMapped t p := by
  intro x hx y hy
  rw [hcfg] at hx hy
  rw [sampleOk_congr hcfg hplat]
  exact h x hx y hy

theorem wmapMapped_congr (hcfg : t.cfg = s.cfg) (hplat : t.plat = s.plat) (h : WmapMapped s) :
    WmapMapped t := by
  intro i hi j hj
  rw [hcfg] at hi hj ⊢
  rw [inMemDom_of_plat hplat]
  exact h i hi j hj

theorem launchReady_congr (h : SameButScan s t) (hs : LaunchReady s) : LaunchReady t where
  running := by rw [Running, h.flt]; exact hs.running
  admissible := by rw [h.plat]; exact hs.admissible
  src := planeMapped_congr h.cfg h.plat hs.src
  dst := planeMapped_congr h.cfg h.plat hs.dst
  table := by rw [h.tab]; exact hs.table

end

/-! ## Reads within the room of the anchors -/

section
variable {s : State} {r : Nat} (hroom : AnchorRoom s r)

theorem candBlk_readable {p : Plane} (hp : PlaneMapped s p) {a : Anchor} {dx dy : Int}
    (hx : 0 ≤ (anchorPos s a).1 + dx) (hx' : (anchorPos s a).1 + dx + 4 ≤ s.cfg.width.toNat)
    (hy : 0 ≤ (anchorPos s a).2 + dy) (hy' : (anchorPos s a).2 + dy + 4 ≤ s.cfg.height.toNat) :
    ∃ b, candBlk s p a dx dy = .ok b := by
  obtain ⟨x, hxe⟩ := Int.eq_ofNat_of_zero_le hx
  obtain ⟨y, hye⟩ := Int.eq_ofNat_of_zero_le hy
  rw [candBlk, hxe, hye]
  exact blk_readable hp x y (by omega) (by omega)

include hroom

theorem searchBlk_of_room {p : Plane} (hp : PlaneMapped s p) {o : Int × Int} (hx : o.1.natAbs ≤ r)
    (hy : o.2.natAbs ≤ r) : ∃ b, candBlk s p .s o.1 o.2 = .ok b := by
  obtain ⟨hl, hr, ht, hb, -, -⟩ := hroom
  exact candBlk_readable hp (by simp only [anchorPos]; omega) (by simp only [anchorPos]; omega)
    (by simp only [anchorPos]; omega) (by simp only [anchorPos]; omega)

theorem baseBlk_of_room (hsrc : PlaneMapped s .src) : ∃ b, candBlk s .src .b 0 0 = .ok b := by
  obtain ⟨-, -, -, -, hr, hb⟩ := hroom
  exact candBlk_readable hsrc (by simp only [anchorPos]; omega) (by simp only [anchorPos]; omega)
    (by simp only [anchorPos]; omega) (by simp only [anchorPos]; omega)

theorem baseMapped_of_dst (hdst : PlaneMapped s .dst) : baseMapped s = true := by
  obtain ⟨-, -, -, -, hr, hb⟩ := hroom
  refine List.all_eq_true.2 fun l _ => hdst _ ?_ _ ?_ <;> omega

theorem scanReadable_of_room {p : Plane} (hsrc : PlaneMapped s .src) (hp : PlaneMapped s p)
    {os : List (Int × Int)} (hos : ∀ o ∈ os, o.1.natAbs ≤ r ∧ o.2.natAbs ≤ r) :
    scanReadable s p .s os = true := by
  obtain ⟨ref, href⟩ := baseBlk_of_room hroom hsrc
  simp only [scanReadable, href, Bool.and_eq_true, List.all_eq_true]
  refine ⟨rfl, fun o ho => ?_⟩
  obtain ⟨b, hb⟩ := searchBlk_of_room hroom hp (hos o ho).1 (hos o ho).2
  rw [hb]
  rfl

/-- The blocks of `DEVL` are at most one sample away from the search anchor (00_scope.md R8). -/
theorem devlOp_of_room (hready : LaunchReady s) (hr : 1 ≤ r) : ∃ d, devlOp s = .ok () (s.setDev d) := by
  have hadm := hready.admissible
  simp only [Platform.admissible, DevGeom.admissible, List.all_cons, List.all_nil, Bool.and_eq_true,
    decide_eq_true_eq] at hadm
  have hblk : ∀ {o : Int × Int}, ((-1 ≤ o.1 ∧ o.1 ≤ 1) ∧ -1 ≤ o.2) ∧ o.2 ≤ 1 →
      ∃ b, searchBlk s o = .ok b :=
    fun ho => searchBlk_of_room hroom hready.src (by omega) (by omega)
  obtain ⟨⟨⟨ha1, hb1, ha2, hb2, -⟩, -⟩, -⟩ := hadm
  obtain ⟨a1, ha1⟩ := hblk ha1
  obtain ⟨b1, hb1⟩ := hblk hb1
  obtain ⟨a2, ha2⟩ := hblk ha2
  obtain ⟨b2, hb2⟩ := hblk hb2
  exact ⟨_, devlOp_ok (devlReads_ok ha1 hb1 ha2 hb2)⟩

end

/-! ## The kernels of a tile -/

/-- A command that completes is followed by the rest of its sequence. -/
theorem execSeq_cons_ok {i : Instr} {rest : List Instr} {s t : State} (hs : Running s)
    (h : opOf i s = .ok () t) : execSeq (i :: rest) s = execSeq rest t :=
  execSeq_cons_next hs (exec_of_ok h)

/-- A kernel that completed in `t`: of the datapath registers that a tile goes on to use, only the count and
those of the scan differ. -/
structure KernelDone (i : Instr) (s t : State) : Prop where
  run : opOf i s = .ok () t
  thr : t.dp.thr = s.dp.thr
  dev : t.dp.dev = s.dp.dev
  devp : t.dp.devp = s.dp.devp
  devn : t.dp.devn = s.dp.devn
  ww : t.dp.ww = s.dp.ww
  positive : 1 ≤ t.dp.wacc.toNat
  bounded : t.dp.wacc.toNat ≤ 49

/-- What the statements about kernels say of a run, as `KernelDone`. -/
theorem kernelDone_of_exec {i : Instr} {s t : State} {cp : Plane} {ca : Anchor} {os : List (Int × Int)}
    {n : Nat} (hs : Running s) (hexec : exec i s = .next t) (hsame : SameButData s t)
    (hscan : ScanLeaves s cp ca os n t.dp) (hpass : 0 < passCount s cp ca os) (hlen : os.length ≤ 49) :
    KernelDone i s t where
  run := opOf_ok_of_running hexec (running_of_sameButData hsame hs)
  thr := hscan.thr
  dev := hscan.dev
  devp := hscan.devp
  devn := hscan.devn
  ww := hscan.ww
  positive := hscan.wacc ▸ hpass
  bounded := hscan.wacc ▸ (List.length_filter_le _ _).trans hlen

theorem natAbs_le_of_mem_ring {d : Nat} {o : Int × Int} (h : o ∈ ring d) :
    o.1.natAbs ≤ d ∧ o.2.natAbs ≤ d :=
  natAbs_le_of_mem_square (List.mem_of_mem_filter h)

/-- `AFILT` goes no further than its radius (44_filter_kernels.md R182). -/
theorem natAbs_le_of_mem_afiltOffsets {s : State} {r : Nat} (hr : 2 ≤ r) {o : Int × Int}
    (h : o ∈ afiltOffsets s r) : o.1.natAbs ≤ r ∧ o.2.natAbs ≤ r := by
  have hring : ∃ d, d ≤ r ∧ o ∈ ring d := by
    unfold afiltOffsets at h
    split at h
    case isTrue => exact (List.mem_append.1 h).elim (⟨0, by omega, ·⟩) (⟨1, by omega, ·⟩)
    case isFalse =>
      split at h
      case isTrue hthree =>
        simp only [List.mem_append, or_assoc] at h
        obtain h | h | h | h := h
        exacts [⟨0, by omega, h⟩, ⟨1, by omega, h⟩, ⟨2, by omega, h⟩, ⟨3, by omega, h⟩]
      case isFalse =>
        simp only [List.mem_append, or_assoc] at h
        obtain h | h | h := h
        exacts [⟨0, by omega, h⟩, ⟨1, by omega, h⟩, ⟨2, by omega, h⟩]
  obtain ⟨d, hd, ho⟩ := hring
  exact (natAbs_le_of_mem_ring ho).imp (·.trans hd) (·.trans hd)

section
variable {s : State} (hready : LaunchReady s) {r : Nat} (hroom : AnchorRoom s r)
include hready hroom

theorem filt_ready (hr : r = 2 ∨ r = 3) (hpass : 0 < passCount s .src .s (square r)) :
    ∃ t, KernelDone (.filt r) s t ∧ t.dp.resid = s.dp.resid := by
  have hanchor : (if r = 0 then Anchor.b else Anchor.s) = .s := if_neg (by omega)
  obtain ⟨t, hexec, hsame, hscan, hresid, -⟩ := filtFiltersTheBlock r s (.inr hr)
    (by rw [hanchor]; exact scanReadable_of_room hroom hready.src hready.src fun _ => natAbs_le_of_mem_square)
    (by rwa [hanchor]) hready.table (baseMapped_of_dst hroom hready.dst)
  rw [hanchor] at hscan
  exact ⟨t, kernelDone_of_exec hready.running hexec hsame hscan hpass (square_length_le (by omega)), hresid⟩

theorem afilt_ready (hr : r = 2 ∨ r = 3) (hpass : 0 < passCount s .src .s (afiltOffsets s r)) :
    ∃ t, KernelDone (.afilt r) s t ∧ t.dp.resid = s.dp.resid := by
  obtain ⟨t, hexec, hsame, hscan, hresid, -⟩ := afiltWidensOnDemand r s hr
    (scanReadable_of_room hroom hready.src hready.src fun _ => natAbs_le_of_mem_afiltOffsets (by omega))
    hpass hready.table (baseMapped_of_dst hroom hready.dst)
  exact ⟨t, kernelDone_of_exec hready.running hexec hsame hscan hpass (afiltOffsets_length_le s r), hresid⟩

/-- `FILT 0` meets the reference itself, whatever the search anchor. -/
theorem filt_zero_ready (hthr : 1 ≤ s.dp.thr.toNat) :
    ∃ t, KernelDone (.filt 0) s t ∧ t.dp.resid = s.dp.resid := by
  obtain ⟨ref, href⟩ := baseBlk_of_room hroom hready.src
  have hpass : 0 < passCount s .src .b (square 0) :=
    (selfCandidateGuaranteesWeight s 0 hthr ⟨ref, href⟩).2.1.ge
  have hread : scanReadable s .src .b (square 0) = true := by
    have hsquare : square 0 = [(0, 0)] := by decide
    simp [scanReadable, hsquare, href, isOk]
  obtain ⟨t, hexec, hsame, hscan, hresid, -⟩ := filtFiltersTheBlock 0 s (.inl rfl) hread hpass hready.table
    (baseMapped_of_dst hroom hready.dst)
  exact ⟨t, kernelDone_of_exec hready.running hexec hsame hscan hpass (by decide), hresid⟩

theorem ofilt_ready {p : Plane} (hr : r = 2 ∨ r = 3) (hne : p ≠ .dst) (hp : PlaneMapped s p)
    (hpass : 0 < passCount s p .s (square r)) :
    ∃ t, KernelDone (.ofilt r p) s t ∧ t.dp.resid = s.dp.resid := by
  obtain ⟨t, hexec, hsame, hscan, hresid, -⟩ := ofiltBlendsTheBlock r p s hr hne
    (scanReadable_of_room hroom hready.src hp fun _ => natAbs_le_of_mem_square) hpass hready.table
    (baseMapped_of_dst hroom hready.dst)
  exact ⟨t, kernelDone_of_exec hready.running hexec hsame hscan hpass (square_length_le (by omega)), hresid⟩

theorem dfilt_ready (hr : 1 ≤ r) (hpass : 0 < passCount s .src .s (square 1)) :
    ∃ t, KernelDone .dfilt s t := by
  obtain ⟨t, hexec, hsame, hscan, -, -⟩ := dfiltBlendsAndMeasures s
    (scanReadable_of_room hroom hready.src hready.src
      fun _ ho => (natAbs_le_of_mem_square ho).imp (·.trans hr) (·.trans hr))
    hpass hready.table (baseMapped_of_dst hroom hready.dst)
  exact ⟨t, kernelDone_of_exec hready.running hexec hsame hscan hpass (by decide)⟩

end

/-! ## TILE1 without temporal mode -/

/-- `MODE.R1` below 2 refuses the tile (45_scan_driver.md R210). -/
theorem tile1Op_error {s : State} (h : s.cfg.modeR1.toNat < 2) : tile1Op s = .error .cfg s := by
  rw [tile1Op, op_bind_ok (op_get s), if_pos h]
  rfl

theorem threshValue_toNat (dev lambda tmax : Half) : (threshValue dev lambda tmax).toNat =
    max 1 (min (dev.toNat * lambda.toNat / 2 ^ 10) tmax.toNat) := by
  have htmax := tmax.isLt
  exact Nat.mod_eq_of_lt (by omega)

section
variable {s : State} (hgeom : geomOk s.cfg .p1 0 = true) (hclamped : Clamped s .p1)
include hgeom hclamped

/-- The two anchors of `P1` are at most `R` apart. -/
theorem anchors_near : ((s.ag.baseX.toNat : Int) - s.ag.searchX.toNat).natAbs ≤ s.cfg.modeR1.toNat ∧
    ((s.ag.baseY.toNat : Int) - s.ag.searchY.toNat).natAbs ≤ s.cfg.modeR1.toNat := by
  obtain ⟨-, hw, hh⟩ := geomOk_p1 hgeom
  obtain ⟨hsx, hsy, hbx, hby⟩ := hclamped
  simp only [searchAnchor, clampNat, baseAnchor] at hsx hsy hbx hby
  omega

/-- At an exact tile the two anchors are the nominal position (R212). -/
theorem base_eq_search_of_exact (hx : s.ag.searchX = s.ag.tx) (hy : s.ag.searchY = s.ag.ty) :
    s.ag.baseX = s.ag.searchX ∧ s.ag.baseY = s.ag.searchY := by
  obtain ⟨-, hw, hh⟩ := geomOk_p1 hgeom
  obtain ⟨hsx, hsy, hbx, hby⟩ := hclamped
  simp only [searchAnchor, clampNat, baseAnchor, ← hx, ← hy] at hsx hsy hbx hby
  exact ⟨BitVec.eq_of_toNat_eq (by omega), BitVec.eq_of_toNat_eq (by omega)⟩

end

/-- The filter of a spatial tile (45_scan_driver.md R210). -/
def spatialFilter (s : State) : Instr :=
  if modeAR s.cfg = true ∧ s.ag.searchX = s.ag.tx ∧ s.ag.searchY = s.ag.ty then .afilt s.cfg.modeR1.toNat
  else .filt s.cfg.modeR1.toNat

theorem opOf_spatialFilter (s : State) : opOf (spatialFilter s) =
    if modeAR s.cfg && exactTile s.ag then afiltOp s.cfg.modeR1.toNat else filtOp s.cfg.modeR1.toNat := by
  simp only [spatialFilter, apply_ite opOf, exactTile, Bool.and_eq_true, beq_iff_eq]
  rfl

theorem spatialFilter_ready {s : State} (hready : LaunchReady s) (hgeom : geomOk s.cfg .p1 0 = true)
    (hclamped : Clamped s .p1) (hthr : 1 ≤ s.dp.thr.toNat) :
    ∃ t, KernelDone (spatialFilter s) s t ∧ t.dp.resid = s.dp.resid := by
  obtain ⟨hr, -, -⟩ := geomOk_p1 hgeom
  have hroom := anchorRoom_of_clamped hgeom hclamped
  have hself := selfCandidateGuaranteesWeight s s.cfg.modeR1.toNat hthr (baseBlk_of_room hroom hready.src)
  obtain ⟨hnear, -, hexact⟩ := hself
  unfold spatialFilter
  split
  case isTrue h =>
    obtain ⟨hx, hy⟩ := base_eq_search_of_exact hgeom hclamped h.2.1 h.2.2
    exact afilt_ready hready hroom hr (hexact hx hy)
  case isFalse =>
    obtain ⟨hx, hy⟩ := anchors_near hgeom hclamped
    exact filt_ready hready hroom hr (hnear hx hy)

/-- A spatial tile is `DEVL`, `THRESH` and its filter, as pseudocode and as commands. -/
theorem tile1_spatial_ready {s : State} (hready : LaunchReady s) (hgeom : geomOk s.cfg .p1 0 = true)
    (hclamped : Clamped s .p1) (hspatial : modeT s.cfg = false) :
    ∃ dev t, tile1Op s = .ok () t ∧ execSeq (spatialCommands s) s = t ∧
      KernelDone (spatialFilter s) (measured s dev) t ∧ t.dp.resid = s.dp.resid := by
  obtain ⟨hr, -, -⟩ := geomOk_p1 hgeom
  obtain ⟨dev, hdevl⟩ := devlOp_of_room (anchorRoom_of_clamped hgeom hclamped) hready (by omega)
  have hmeasured : LaunchReady (measured s dev) := 
    launchReady_congr (s := s) ⟨rfl, rfl, rfl, rfl, rfl, rfl⟩ hready
  obtain ⟨t, hdone, hresid⟩ := spatialFilter_ready hmeasured hgeom hclamped (one_le_threshValue _ _ _)
  refine ⟨dev, t, ?op, ?commands, hdone, hresid⟩
  case op =>
    rw [tile1Op_spatial (by omega) hspatial hdevl, ← opOf_spatialFilter]
    exact hdone.run
  case commands =>
    have hdevl' : opOf .devl s = .ok () (s.setDev dev) := hdevl
    have hthresh : opOf .thresh (s.setDev dev) = .ok () (measured s dev) := rfl
    have hs : Running (s.setDev dev) := hready.running
    calc execSeq [.devl, .thresh, spatialFilter s] s
      _ = execSeq [.thresh, spatialFilter s] (s.setDev dev) := execSeq_cons_ok hready.running hdevl'
      _ = execSeq [spatialFilter s] (measured s dev) := execSeq_cons_ok hs hthresh
      _ = t := execSeq_cons_ok hmeasured.running hdone.run

/-- Settles O49: the filter of `spatialFilter` after `DEVL` and `THRESH`, in the frame of every tile. -/
theorem tile1SpatialCompletes : Obligations.Tile1SpatialCompletes := by
  intro s
  refine ⟨fun hr => exec_of_error (tile1Op_error hr), fun hready hgeom hclamped hspatial => ?_⟩
  obtain ⟨dev, t, hrun, hseq, hdone, hresid⟩ := tile1_spatial_ready hready hgeom hclamped hspatial
  have hframe := tileFrame_of_ok (map := False) tileFrame_tile1Op hrun
  refine ⟨t, exec_of_ok hrun, hseq.symm, running_of_sameButData hframe.toSameButData hready.running,
    hframe.toSameButData, ⟨hdone.devp, hdone.devn, hdone.ww, hresid⟩, ?thr, hdone.positive, hdone.bounded,
    fun a ha => hframe.bytes a ha False.elim⟩
  case thr =>
    rw [hdone.thr, hdone.dev]
    exact threshValue_toNat _ _ _

end Sys2Proof.Machine

/-! # The tiles of pass 2

`TILE2A` and `TILE2B` are a `PACK` and a kernel around the entry of their tile in the weight map
(45_scan_driver.md R214, R215). -/

namespace Sys2Proof.Machine

/-! ## Anchors and entries -/

section
variable {s : State}

theorem anchorRoom_p2a (hgeom : geomOk s.cfg .p2a 0 = true) (hwalk : inWalk s .p2a 0 = true)
    (hclamped : Clamped s .p2a) :
    AnchorRoom s 1 ∧ s.ag.baseX.toNat = s.ag.searchX.toNat ∧ s.ag.baseY.toNat = s.ag.searchY.toNat := by
  obtain ⟨⟨hx, hl, hr⟩, hy, ht, hb⟩ := anchorsStayInBounds s .p2a 0 hgeom hwalk hclamped
  exact ⟨by constructor <;> omega, hx.symm, hy.symm⟩

theorem anchorRoom_p2b {k : Nat} (hgeom : geomOk s.cfg .p2b k = true) (hwalk : inWalk s .p2b k = true)
    (hclamped : Clamped s .p2b) :
    AnchorRoom s 2 ∧ ((s.ag.baseX.toNat : Int) - s.ag.searchX.toNat).natAbs ≤ 1 ∧
      ((s.ag.baseY.toNat : Int) - s.ag.searchY.toNat).natAbs ≤ 1 := by
  obtain ⟨⟨hl, hr, -, hr', hx⟩, ht, hb, -, hb', hy⟩ := anchorsStayInBounds s .p2b k hgeom hwalk hclamped
  exact ⟨by constructor <;> omega, hx, hy⟩

theorem tileEntry_error (h : wmapOk s.cfg = false) : tileEntry s = .error .cfg := by
  rw [tileEntry, h]
  rfl

/-- The address of the entry of the current tile (45_scan_driver.md R214, 20_memory.md R77). -/
def entryAddr (s : State) : Nat :=
  s.cfg.wmapBase.toNat + s.ag.ty.toNat / 4 * s.cfg.wmapStride.toNat + s.ag.tx.toNat / 4

/-- Within a walk of pass 2 the entry exists, and a mapped weight map holds it. -/
theorem tileEntry_ok (hok : wmapOk s.cfg = true) (hmap : WmapMapped s)
    (hx : s.ag.tx.toNat + 4 < s.cfg.width.toNat) (hy : s.ag.ty.toNat + 4 < s.cfg.height.toNat) :
    tileEntry s = .ok (entryAddr s) ∧ s.inMemDom (entryAddr s) = true := by
  obtain ⟨hle, hdom⟩ := hmap (s.ag.tx.toNat / 4) (by omega) (s.ag.ty.toNat / 4) (by omega)
  refine ⟨?_, hdom⟩
  rw [tileEntry, if_pos hok, wmaddr, if_neg (by omega), if_neg hle.not_gt]
  rfl

theorem inWalk_p2a (h : inWalk s .p2a 0 = true) :
    s.ag.tx.toNat + 4 < s.cfg.width.toNat ∧ s.ag.ty.toNat + 4 < s.cfg.height.toNat := by
  obtain ⟨-, -, hx, hy⟩ := inWalk_iff.1 h
  exact ⟨of_decide_eq_true hx, of_decide_eq_true hy⟩

theorem inWalk_p2b {k : Nat} (h : inWalk s .p2b k = true) :
    s.ag.tx.toNat + 4 < s.cfg.width.toNat ∧ s.ag.ty.toNat + 4 < s.cfg.height.toNat := by
  obtain ⟨-, -, hx, hy⟩ := inWalk_iff.1 h
  exact ⟨of_decide_eq_true hx, of_decide_eq_true hy⟩

theorem launchReady_setWw (h : LaunchReady s) (v : Word) : LaunchReady (s.setWw v) :=
  launchReady_congr (s := s) ⟨rfl, rfl, rfl, rfl, rfl, rfl⟩ h

/-- `PACK` and then an instruction, as commands. -/
theorem execSeq_pack {i : Instr} {t : State} {alpha : Nat} (hs : Running s)
    (h : opOf i (s.setWw (packWord alpha)) = .ok () t) : execSeq [.pack alpha, i] s = t := by
  have hpack : opOf (.pack alpha) s = .ok () (s.setWw (packWord alpha)) := rfl
  have hs' : Running (s.setWw (packWord alpha)) := hs
  exact (execSeq_cons_ok hs hpack).trans (execSeq_cons_ok hs' h)

end

/-! ## TILE2A -/

theorem clipResid_toNat (v : Word) : (clipResid v).toNat = min v.toNat 255 :=
  Nat.mod_eq_of_lt (by omega)

/-- `TILE2A` is `PACK`, `DFILT` and a store to the entry. -/
theorem tile2a_ready {s : State} (hready : LaunchReady s) (hmap : WmapMapped s) (hok : wmapOk s.cfg = true)
    (hgeom : geomOk s.cfg .p2a 0 = true) (hwalk : inWalk s .p2a 0 = true) (hclamped : Clamped s .p2a)
    (hthr : 1 ≤ s.dp.thr.toNat) :
    ∃ u, KernelDone .dfilt (s.setWw (packWord s.plat.p2aAlpha)) u ∧
      tile2aOp s = .ok () (u.setMem (memPut u.mem (entryAddr s) (clipResid u.dp.resid))) := by
  obtain ⟨hroom, hx, hy⟩ := anchorRoom_p2a hgeom hwalk hclamped
  obtain ⟨htx, hty⟩ := inWalk_p2a hwalk
  obtain ⟨hentry, hdom⟩ := tileEntry_ok hok hmap htx hty
  have hready' := launchReady_setWw hready (packWord s.plat.p2aAlpha)
  have hroom' : AnchorRoom (s.setWw (packWord s.plat.p2aAlpha)) 1 := { hroom with }
  have hself := (selfCandidateGuaranteesWeight (s.setWw (packWord s.plat.p2aAlpha)) 1 hthr
    (baseBlk_of_room hroom' hready'.src)).1 (by simp [hx]) (by simp [hy])
  obtain ⟨u, hdone⟩ := dfilt_ready hready' hroom' le_rfl hself
  refine ⟨u, hdone, ?_⟩
  have hframe := tileFrame_of_ok (map := False) tileFrame_dfiltOp hdone.run
  have hstore : memWrite (entryAddr s) (clipResid u.dp.resid) u =
      .ok () (u.setMem (memPut u.mem (entryAddr s) (clipResid u.dp.resid))) :=
    if_pos (by rw [inMemDom_of_plat (s := s) hframe.plat]; exact hdom)
  have hpack : packOp s.plat.p2aAlpha s = .ok () (s.setWw (packWord s.plat.p2aAlpha)) := rfl
  rw [tile2aOp, look_bind_ok hentry, op_bind_ok (op_get s), op_bind_ok hpack,
    op_bind_ok (show dfiltOp _ = _ from hdone.run), op_bind_ok (op_get u), hstore]

/-- Settles O51: the store comes last, and the commands before it run as in `tile2a_ready`. -/
theorem tile2aFillsTheWeightMap : Obligations.Tile2aFillsTheWeightMap := by
  intro s entry
  refine ⟨fun hbad => exec_of_error (look_bind_error (tileEntry_error hbad)),
    fun hready hmap hok hgeom hwalk hclamped hthr => ?_⟩
  obtain ⟨u, hdone, hrun⟩ := tile2a_ready hready hmap hok hgeom hwalk hclamped hthr
  have hframe := tileFrame_of_ok tileFrame_tile2aOp hrun
  have hblend := tileFrame_of_ok (map := False) tileFrame_dfiltOp hdone.run
  have hother : ∀ a, a ≠ entry →
      (u.setMem (memPut u.mem entry (clipResid u.dp.resid))).byteAt a = u.byteAt a :=
    fun a ha => byteAt_memPut_other u entry a _ ha
  refine ⟨_, exec_of_ok hrun, hframe.toSameButData, ?commands, ?entry, fun a hbase ha => ?outside⟩
  case commands =>
    rw [execSeq_pack hready.running hdone.run]
    exact ⟨running_of_sameButData hblend.toSameButData hready.running, rfl, hother⟩
  case entry =>
    exact (congrArg BitVec.toNat (byteAt_memPut_same u entry _)).trans (clipResid_toNat _)
  case outside => exact (hother a ha).trans (hblend.bytes a hbase False.elim)

/-! ## TILE2B -/

theorem tile2bOp_error {s : State} (h : s.ag.agg ≠ .p2b ∨ wmapOk s.cfg = false) :
    tile2bOp s = .error .cfg s := by
  rw [tile2bOp, op_bind_ok (op_get s)]
  split
  case isTrue hg => exact look_bind_error (tileEntry_error (h.resolve_left (not_not.2 hg)))
  case isFalse => rfl

/-- What `TILE2B` does for a readable entry. -/
theorem tile2bOp_eq {s : State} {a : Nat} (hg : s.ag.agg = .p2b) (hentry : tileEntry s = .ok a)
    (hdom : s.inMemDom a = true) :
    tile2bOp s = (if s.cfg.tp1.toNat ≤ (s.byteAt a).toNat then
      packOp s.ag.agk.toNat >>= fun _ => ofiltOp 2 .src else pure ()) s := by
  have hread : memRead s a = .ok (s.byteAt a) := if_pos hdom
  rw [tile2bOp, op_bind_ok (op_get s), if_pos hg, look_bind_ok hentry, look_bind_ok hread]

theorem tile2b_ready {s : State} (hready : LaunchReady s) (hgeom : geomOk s.cfg .p2b s.ag.agk.toNat = true)
    (hwalk : inWalk s .p2b s.ag.agk.toNat = true) (hclamped : Clamped s .p2b) (hthr : 1 ≤ s.dp.thr.toNat) :
    ∃ t, KernelDone (.ofilt 2 .src) (s.setWw (packWord s.ag.agk.toNat)) t := by
  obtain ⟨hroom, hx, hy⟩ := anchorRoom_p2b hgeom hwalk hclamped
  have hready' := launchReady_setWw hready (packWord s.ag.agk.toNat)
  have hroom' : AnchorRoom (s.setWw (packWord s.ag.agk.toNat)) 2 := { hroom with }
  have hself := (selfCandidateGuaranteesWeight (s.setWw (packWord s.ag.agk.toNat)) 2 hthr
    (baseBlk_of_room hroom' hready'.src)).1 (hx.trans (by decide)) (hy.trans (by decide))
  obtain ⟨t, hdone, -⟩ := ofilt_ready hready' hroom' (.inl rfl) (by decide) hready'.src hself
  exact ⟨t, hdone⟩

/-- Settles O52: the refusal, and the two outcomes of `tile2bOp_eq`. -/
theorem tile2bRefinesOrSkips : Obligations.Tile2bRefinesOrSkips := by
  intro s k
  refine ⟨fun h => exec_of_error (tile2bOp_error h), fun a hg hentry hdom => ⟨fun hlow => ?skip, ?refine⟩⟩
  case skip =>
    exact exec_of_ok ((tile2bOp_eq hg hentry hdom).trans (congrFun (if_neg hlow.not_ge) s))
  case refine =>
    intro hhigh hready hgeom hwalk hclamped hthr
    obtain ⟨t, hdone⟩ := tile2b_ready hready hgeom hwalk hclamped hthr
    have hpack : packOp k s = .ok () (s.setWw (packWord k)) := rfl
    have hrun : tile2bOp s = .ok () t := by
      rw [tile2bOp_eq hg hentry hdom, if_pos hhigh, op_bind_ok hpack]
      exact hdone.run
    have hframe := tileFrame_of_ok (map := False) tileFrame_tile2bOp hrun
    exact ⟨t, exec_of_ok hrun, (execSeq_pack hready.running hdone.run).symm,
      running_of_sameButData hframe.toSameButData hready.running, hframe.toSameButData,
      fun a ha => hframe.bytes a ha False.elim⟩

end Sys2Proof.Machine

/-! # TILE1 in temporal mode

Where the two anchors of a tile agree, a neighbour frame that passes the threshold at the tile passes it again as
the centre candidate of its blend. The stores of the filter before it cannot change that, because the destination
shares no byte with the planes that are read (45_scan_driver.md R210, R211, 70_reset_and_hazards.md R286). -/

namespace Sys2Proof.Machine

/-! ## Pseudocode beside its commands -/

/-- Pseudocode and a sequence of commands that complete in the same state, within the frame of a tile. -/
structure TileRun (op : Op Unit) (is : List Instr) (s t : State) : Prop where
  run : op s = .ok () t
  commands : execSeq is s = t
  frame : TileFrame False s t

theorem tileRun_bind {x : Op Unit} {f : Unit → Op Unit} {is js : List Instr} {s t u : State}
    (hx : TileRun x is s t) (hf : TileRun (f ()) js t u) : TileRun (x >>= f) (is ++ js) s u where
  run := (op_bind_ok hx.run).trans hf.run
  commands := by rw [execSeq_append, hx.commands, hf.commands]
  frame := tileFrame_frame.trans s t u hx.frame hf.frame

theorem tileRun_instr {i : Instr} {s t : State} (hs : Running s) (hrun : opOf i s = .ok () t)
    (hframe : Keeps (TileFrame False) (opOf i)) : TileRun (opOf i) [i] s t :=
  ⟨hrun, execSeq_cons_ok hs hrun, tileFrame_of_ok hframe hrun⟩

/-! ## The planes that are read -/

/-- A tile of a ready plane in temporal mode, with the destination apart from every plane that is read. -/
structure TemporalTile (s : State) : Prop where
  ready : LaunchReady s
  mapped : ∀ p, PlaneMapped s p
  apart : ∀ p, p ≠ .dst → DstApart s p
  geom : geomOk s.cfg .p1 0 = true
  clamped : Clamped s .p1

section
variable {s t : State} {p : Plane}

theorem outsideBase_of_apart (hap : DstApart s p) {x y : Nat} (hx : x < s.cfg.width.toNat)
    (hy : y < s.cfg.height.toNat) : OutsideBase s (linearAddr s.cfg p x y) := by
  intro l _ haddr
  obtain ⟨hin, -, heq⟩ := (sampleAddr_ok_iff _ _ _ _ _).1 haddr
  simp only [inPlane, baseLane, Bool.and_eq_true] at hin
  obtain ⟨⟨⟨-, hcolumn⟩, -⟩, hrow⟩ := hin
  exact hap _ (Int.ofNat_lt.1 (of_decide_eq_true hcolumn)) _ (Int.ofNat_lt.1 (of_decide_eq_true hrow)) x hx y hy
    heq.symm

theorem candBlk_of_apart (h : TileFrame False s t) (hap : DstApart s p) (a : Anchor) (dx dy : Int) :
    candBlk t p a dx dy = candBlk s p a dx dy := by
  have hbytes : SameBytes (fun a => ∃ x y, x < s.cfg.width.toNat ∧ y < s.cfg.height.toNat ∧
      linearAddr s.cfg p (x : Nat) (y : Nat) = a) s (s.setMem t.mem) := by
    rintro _ ⟨x, y, hx, hy, rfl⟩
    exact h.bytes _ (outsideBase_of_apart hap hx hy) False.elim
  calc candBlk t p a dx dy
    _ = candBlk (s.setMem t.mem) p a dx dy := 
      candBlk_congr (s := s.setMem t.mem) h.cfg h.plat rfl h.ag p a dx dy
    _ = candBlk s p a dx dy :=
      blk_setMem (fun x hx y hy => ⟨x, y, hx, hy, rfl⟩) rfl hbytes _ _

theorem temporalTile_of_frame (h : TileFrame False s t) (hs : TemporalTile s) : TemporalTile t where
  ready := launchReady_congr (sameButScan_of_data h.toSameButData) hs.ready
  mapped p := planeMapped_congr h.cfg h.plat (hs.mapped p)
  apart p hp := by rw [DstApart, h.cfg]; exact hs.apart p hp
  geom := by rw [h.cfg]; exact hs.geom
  clamped := by rw [Clamped, h.cfg, h.ag]; exact hs.clamped

theorem candSad_of_frame (hs : TemporalTile s) (h : TileFrame False s t) (hp : p ≠ .dst) (o : Int × Int) :
    candSad t p .s o = candSad s p .s o := by
  simp only [candSad, candBlk_of_apart h (hs.apart .src (by decide)), candBlk_of_apart h (hs.apart p hp)]

end

/-! ## The blends -/

section
variable {u : State} (hu : TemporalTile u)
include hu

/-- A blend whose centre candidate passes. -/
theorem temporalBlend_ready {p : Plane} (hp : p ≠ .dst)
    (hpass : candSad u p .s (0, 0) < u.dp.thr.toNat) (k : Nat) :
    ∃ t, TileRun (temporalBlend u.cfg.modeR1.toNat k p) [.pack k, .ofilt u.cfg.modeR1.toNat p] u t ∧
      KernelDone (.ofilt u.cfg.modeR1.toNat p) (u.setWw (packWord k)) t ∧ t.dp.resid = u.dp.resid := by
  obtain ⟨hr, -, -⟩ := geomOk_p1 hu.geom
  have hready := launchReady_setWw hu.ready (packWord k)
  have hroom : AnchorRoom (u.setWw (packWord k)) u.cfg.modeR1.toNat := anchorRoom_of_clamped hu.geom hu.clamped
  have hcentre : candPasses (u.setWw (packWord k)) p .s (0, 0) = true := decide_eq_true hpass
  obtain ⟨t, hdone, hresid⟩ := ofilt_ready hready hroom hr hp (hu.mapped p)
    (passCount_pos (mem_square.2 (by simp)) hcentre)
  have hpack : TileRun (opOf (.pack k)) [.pack k] u (u.setWw (packWord k)) :=
    tileRun_instr hu.ready.running rfl (tileFrame_packOp k)
  have hblend := tileRun_instr hready.running hdone.run (tileFrame_ofiltOp _ p)
  exact ⟨t, tileRun_bind hpack hblend, hdone, hresid⟩

/-- The blend of the next frame, where its deviation is below the threshold (45_scan_driver.md R210). -/
def nextBlend (r k : Nat) : Op Unit := do
  if (← get).dp.devn.toNat < (← get).dp.thr.toNat then temporalBlend r k .next

/-- The commands of `nextBlend`. -/
def nextCommands (r k : Nat) (d : DataRegs) : List Instr :=
  if d.devn.toNat < d.thr.toNat then [.pack k, .ofilt r .next] else []

omit hu in
theorem temporalCommands_eq (r : Nat) (d : DataRegs) : temporalCommands r d =
    if d.devp.toNat < d.thr.toNat then [.pack 1, .ofilt r .prev] ++ nextCommands r 2 d
    else nextCommands r 1 d := by
  by_cases hpass : d.devp.toNat < d.thr.toNat <;> simp [temporalCommands, nextCommands, hpass]

theorem nextBlend_ready (hdevn : u.dp.devn.toNat = candSad u .next .s (0, 0)) (k : Nat) :
    ∃ t, TileRun (nextBlend u.cfg.modeR1.toNat k)
      (nextCommands u.cfg.modeR1.toNat k u.dp) u t ∧ t.dp.resid = u.dp.resid := by
  have htest : nextBlend u.cfg.modeR1.toNat k u = (if u.dp.devn.toNat < u.dp.thr.toNat then
      temporalBlend u.cfg.modeR1.toNat k .next else pure ()) u := rfl
  by_cases hpass : u.dp.devn.toNat < u.dp.thr.toNat
  · obtain ⟨t, hrun, -, hresid⟩ := temporalBlend_ready hu (p := .next) (by decide) (hdevn ▸ hpass) k
    rw [if_pos hpass] at htest
    rw [nextCommands, if_pos hpass]
    exact ⟨t, ⟨htest.trans hrun.run, hrun.commands, hrun.frame⟩, hresid⟩
  · rw [if_neg hpass] at htest
    rw [nextCommands, if_neg hpass]
    exact ⟨u, ⟨htest, rfl, tileFrame_frame.refl u⟩, rfl⟩

/-- The blends of a temporal tile, after its `FILT 0`. -/
def temporalBlends (r : Nat) : Op Unit := do
  if (← get).dp.devp.toNat < (← get).dp.thr.toNat then
    temporalBlend r 1 .prev
    nextBlend r 2
  else nextBlend r 1

omit hu in
theorem tile1Temporal_eq (r : Nat) : tile1Temporal r = filtOp 0 >>= fun _ => temporalBlends r := rfl

theorem temporalBlends_ready (hdevp : u.dp.devp.toNat = candSad u .prev .s (0, 0))
    (hdevn : u.dp.devn.toNat = candSad u .next .s (0, 0)) :
    ∃ t, TileRun (temporalBlends u.cfg.modeR1.toNat) (temporalCommands u.cfg.modeR1.toNat u.dp) u t ∧
      t.dp.resid = u.dp.resid := by
  have htest : temporalBlends u.cfg.modeR1.toNat u = (if u.dp.devp.toNat < u.dp.thr.toNat then
      temporalBlend u.cfg.modeR1.toNat 1 .prev >>= fun _ => nextBlend u.cfg.modeR1.toNat 2
      else nextBlend u.cfg.modeR1.toNat 1) u := rfl
  by_cases hpass : u.dp.devp.toNat < u.dp.thr.toNat
  · obtain ⟨t, hprev, hdone, hresid⟩ := temporalBlend_ready hu (p := .prev) (by decide) (hdevp ▸ hpass) 1
    have hdevn' : t.dp.devn.toNat = candSad t .next .s (0, 0) := by
      rw [candSad_of_frame hu hprev.frame (by decide), hdone.devn]
      exact hdevn
    obtain ⟨v, hnext, hresid'⟩ := nextBlend_ready (temporalTile_of_frame hprev.frame hu) hdevn' 2
    have hsame : nextCommands u.cfg.modeR1.toNat 2 t.dp = nextCommands u.cfg.modeR1.toNat 2 u.dp := by
      simp only [nextCommands, hdone.devn, hdone.thr]
      rfl
    rw [hprev.frame.cfg, hsame] at hnext
    have hboth := tileRun_bind (f := fun _ => nextBlend u.cfg.modeR1.toNat 2) hprev hnext
    rw [if_pos hpass] at htest
    rw [temporalCommands_eq, if_pos hpass]
    exact ⟨v, ⟨htest.trans hboth.run, hboth.commands, hboth.frame⟩, hresid'.trans hresid⟩
  · obtain ⟨v, hnext, hresid⟩ := nextBlend_ready hu hdevn 1
    rw [if_neg hpass] at htest
    rw [temporalCommands_eq, if_neg hpass]
    exact ⟨v, ⟨htest.trans hnext.run, hnext.commands, hnext.frame⟩, hresid⟩

end

/-! ## The tile -/

/-- What a temporal tile measures before its `FILT 0`: the deviations at the tile and a threshold. -/
structure TemporalMeasured (s : State) (d : DataRegs) : Prop where
  devp : d.devp.toNat = candSad s .prev .s (0, 0)
  devn : d.devn.toNat = candSad s .next .s (0, 0)
  thr : 1 ≤ d.thr.toNat
  resid : d.resid = s.dp.resid

/-- The measuring part of a temporal tile (45_scan_driver.md R210). -/
def measureOp : Op Unit := do
  devlOp
  bsadOp .prev
  bsadOp .next
  dminOp
  threshOp

@[inherit_doc measureOp]
def measureCommands : List Instr := [.devl, .bsad .prev, .bsad .next, .dmin, .thresh]

theorem tile1Op_temporal {s : State} (hr : 2 ≤ s.cfg.modeR1.toNat) (ht : modeT s.cfg = true) :
    tile1Op s = (measureOp >>= fun _ => filtOp 0 >>= fun _ => temporalBlends s.cfg.modeR1.toNat) s := by
  have hr' : ¬ s.cfg.modeR1.toNat < 2 := by omega
  rw [tile1Op, op_bind_ok (op_get s), if_neg hr', ht]
  simp only [measureOp, bind_assoc]
  rfl

/-- The deviation of a neighbour frame is the SAD of its centre candidate, where the anchors agree. -/
theorem bsadOp_ready {s : State} (hs : TemporalTile s) (hx : s.ag.searchX = s.ag.baseX)
    (hy : s.ag.searchY = s.ag.baseY) (p : Plane) :
    ∃ v : Half, v.toNat = candSad s p .s (0, 0) ∧
      bsadOp p s = .ok () (if p = .next then s.setDevn v else s.setDevp v) := by
  have hroom := anchorRoom_of_clamped hs.geom hs.clamped
  obtain ⟨a, ha⟩ := searchBlk_of_room hroom hs.ready.src (o := (0, 0)) (Nat.zero_le _) (Nat.zero_le _)
  obtain ⟨b, hb⟩ := searchBlk_of_room hroom (hs.mapped p) (o := (0, 0)) (Nat.zero_le _) (Nat.zero_le _)
  have href : candBlk s .src .b 0 0 = .ok a := by
    rw [← ha]
    simp only [candBlk, anchorPos, hx, hy]
  refine ⟨_, ?_, bsadOp_ok ha hb⟩
  simp only [candSad, href, hb]
  exact toNat_ofNat_of_le_4080 (by decide) (sad4x4_le a b)

theorem measure_ready {s : State} (hs : TemporalTile s) (hx : s.ag.searchX = s.ag.baseX)
    (hy : s.ag.searchY = s.ag.baseY) :
    ∃ u, TemporalMeasured s u.dp ∧ TileRun measureOp measureCommands s u := by
  obtain ⟨hr, -, -⟩ := geomOk_p1 hs.geom
  obtain ⟨dev, hdevl⟩ := devlOp_of_room (anchorRoom_of_clamped hs.geom hs.clamped) hs.ready (by omega)
  have hframe : TileFrame False s (s.setDev dev) := tileFrame_datapath s _
  obtain ⟨devp, hdevp, hprev⟩ := bsadOp_ready (temporalTile_of_frame hframe hs) hx hy .prev
  have hframe' : TileFrame False s ((s.setDev dev).setDevp devp) := tileFrame_datapath s _
  obtain ⟨devn, hdevn, hnext⟩ := bsadOp_ready (temporalTile_of_frame hframe' hs) hx hy .next
  rw [candSad_of_frame hs hframe (by decide)] at hdevp
  rw [candSad_of_frame hs hframe' (by decide)] at hdevn
  have hrun : ∀ {d : DataRegs}, Running { s with dp := d } := hs.ready.running
  have hmeasure := tileRun_bind (f := fun _ => bsadOp .prev >>= fun _ => bsadOp .next >>= fun _ => dminOp >>=
      fun _ => threshOp)
    (tileRun_instr (i := .devl) hs.ready.running hdevl tileFrame_devlOp)
    (tileRun_bind (tileRun_instr (i := .bsad .prev) hrun hprev (tileFrame_bsadOp _))
    (tileRun_bind (tileRun_instr (i := .bsad .next) hrun hnext (tileFrame_bsadOp _))
    (tileRun_bind (tileRun_instr (i := .dmin) hrun rfl (keeps_modify fun s => tileFrame_datapath s _))
    (tileRun_instr (i := .thresh) hrun rfl (keeps_modify fun s => tileFrame_datapath s _)))))
  refine ⟨_, ?_, hmeasure⟩
  exact ⟨hdevp, hdevn, one_le_threshValue _ _ _, rfl⟩

/-- Settles O50: the measurements, `FILT 0` and the blends, each beside its commands. -/
theorem tile1TemporalCompletes : Obligations.Tile1TemporalCompletes := by
  intro s hready hprev hnext hsrc hprevApart hnextApart hgeom hclamped ht hx hy
  have hs : TemporalTile s := by
    refine ⟨hready, fun p => ?_, fun p hp => ?_, hgeom, hclamped⟩
    · cases p
      exacts [hready.src, hprev, hnext, hready.dst]
    · cases p
      exacts [hsrc, hprevApart, hnextApart, absurd rfl hp]
  obtain ⟨hr, -, -⟩ := geomOk_p1 hgeom
  obtain ⟨u, hmeasured, hmeasure⟩ := measure_ready hs hx hy
  have hu := temporalTile_of_frame hmeasure.frame hs
  obtain ⟨v, hdone, hresid⟩ :=
    filt_zero_ready hu.ready (anchorRoom_of_clamped hu.geom hu.clamped) hmeasured.thr
  have hfirst := tileRun_bind (f := fun _ => filtOp 0) hmeasure
    (tileRun_instr hu.ready.running hdone.run (tileFrame_filtOp 0))
  have hsad : ∀ p, p ≠ .dst → candSad v p .s (0, 0) = candSad s p .s (0, 0) :=
    fun p hp => candSad_of_frame hs hfirst.frame hp _
  obtain ⟨t, hblends, hresid'⟩ := temporalBlends_ready (temporalTile_of_frame hfirst.frame hs)
    (by rw [hdone.devp, hsad _ (by decide)]; exact hmeasured.devp)
    (by rw [hdone.devn, hsad _ (by decide)]; exact hmeasured.devn)
  rw [hfirst.frame.cfg] at hblends
  have hall := tileRun_bind (f := fun _ => temporalBlends s.cfg.modeR1.toNat) hfirst hblends
  have hop : tile1Op s = .ok () t := by
    rw [tile1Op_temporal (by omega) ht, ← bind_assoc]
    exact hall.run
  refine ⟨t, exec_of_ok hop, running_of_sameButData hall.frame.toSameButData hready.running,
    hall.frame.toSameButData, hresid'.trans (hresid.trans hmeasured.resid), ?commands,
    fun a ha => hall.frame.bytes a ha False.elim⟩
  have hcommands : execSeq [.devl, .bsad .prev, .bsad .next, .dmin, .thresh, .filt 0] s = v := hfirst.commands
  rw [hcommands]
  exact ⟨running_of_sameButData hfirst.frame.toSameButData hready.running, hblends.commands.symm⟩

end Sys2Proof.Machine

/-! # Passes over a ready plane

Every tile of a walk completes on a ready plane, within a frame that does not depend on the tile: the destination
and, for `PASS2A`, the weight map. The invariant of the walk is that frame, with `THR` where the tiles need it
(45_scan_driver.md R216 to R218). -/

namespace Sys2Proof.Machine

/-! ## The frame of a pass -/

/-- Only datapath and address-generator registers, the destination and, where `map` holds, the weight map
differ. -/
structure PassFrame (map : Prop) (s t : State) : Prop extends SameButScan s t where
  bytes : ∀ a, OutsideDst s.cfg a → (map → OutsideWmap s.cfg a) → t.byteAt a = s.byteAt a

section
variable {map : Prop} {s t u : State}

theorem passFrame_refl (s : State) : PassFrame map s s :=
  ⟨⟨rfl, rfl, rfl, rfl, rfl, rfl⟩, fun _ _ _ => rfl⟩

theorem sameButScan_trans (h : SameButScan s t) (h' : SameButScan t u) : SameButScan s u :=
  ⟨h'.cfg.trans h.cfg, h'.tab.trans h.tab, h'.flt.trans h.flt, h'.plat.trans h.plat, h'.port.trans h.port,
    h'.reply.trans h.reply⟩

theorem passFrame_trans (h : PassFrame map s t) (h' : PassFrame map t u) : PassFrame map s u :=
  ⟨sameButScan_trans h.toSameButScan h'.toSameButScan, fun a ha hmap =>
    (h'.bytes a (by rwa [h.cfg]) (by rwa [h.cfg])).trans (h.bytes a ha hmap)⟩

theorem passFrame_move (h : PassFrame map s t) (ag : AgRegs) : PassFrame map s { t with ag := ag } :=
  ⟨{ h.toSameButScan with }, h.bytes⟩

/-- The base block is made of samples of the destination. -/
theorem outsideBase_of_outsideDst {a : Nat} (h : OutsideDst s.cfg a) : OutsideBase s a := by
  intro l _ haddr
  obtain ⟨hin, -, heq⟩ := (sampleAddr_ok_iff _ _ _ _ _).1 haddr
  simp only [inPlane, baseLane, Bool.and_eq_true] at hin
  obtain ⟨⟨⟨-, hcolumn⟩, -⟩, hrow⟩ := hin
  exact h _ (Int.ofNat_lt.1 (of_decide_eq_true hcolumn)) _ (Int.ofNat_lt.1 (of_decide_eq_true hrow)) heq.symm

theorem passFrame_of_tileFrame (h : TileFrame map s t) : PassFrame map s t :=
  ⟨sameButScan_of_data h.toSameButData, fun a ha hmap => h.bytes a (outsideBase_of_outsideDst ha) hmap⟩

end

/-! ## PASS1 -/

theorem pass1Op_error {s : State} (h : planeOk s.cfg (modeT s.cfg) = false ∨ geomOk s.cfg .p1 0 = false) :
    pass1Op s = .error .cfg s := by
  rw [pass1Op, op_bind_ok (op_get s)]
  split
  case isTrue hplane => exact walkOp_error (h.resolve_left (by simp [hplane]))
  case isFalse => rfl

theorem passFrame_walkInvariant {s : State} (hready : LaunchReady s) (hgeom : geomOk s.cfg .p1 0 = true)
    (hspatial : modeT s.cfg = false) : WalkInvariant s.cfg .p1 0 tile1Op fun _ => PassFrame False s where
  cfg h := h.cfg
  move ag h := passFrame_move h ag
  tile {u i j} htile hu := by
    have hcfg := hu.cfg
    obtain ⟨dev, t, hrun, -⟩ := tile1_spatial_ready (launchReady_congr hu.toSameButScan hready)
      (by rwa [hcfg]) htile.clamped (by rwa [hcfg])
    have hframe := tileFrame_of_ok (map := False) tileFrame_tile1Op hrun
    exact ⟨t, hrun, hframe.ag, passFrame_trans hu (passFrame_of_tileFrame hframe)⟩

theorem pass1_ready {s : State} (hready : LaunchReady s) (hplane : planeOk s.cfg false = true)
    (hgeom : geomOk s.cfg .p1 0 = true) (hspatial : modeT s.cfg = false) :
    ∃ t, pass1Op s = .ok () t ∧ PassFrame False s t ∧ t.ag.agdone = true := by
  obtain ⟨t, hrun, ht⟩ := walkOp_ok (passFrame_walkInvariant hready hgeom hspatial) hgeom (by decide)
    (passFrame_refl s)
  exact ⟨t, (pass1Op_spatial hplane hspatial).trans hrun, ht⟩

/-- Settles O53: the walk of `PASS1` completes within the frame of a pass. -/
theorem pass1Completes : Obligations.Pass1Completes := by
  intro s
  refine ⟨fun h => exec_of_error (pass1Op_error h), fun hready hplane hgeom hspatial => ?_⟩
  obtain ⟨t, hrun, hframe, hdone⟩ := pass1_ready hready hplane hgeom hspatial
  exact ⟨t, exec_of_ok hrun, hframe.toSameButScan, hdone, fun a ha => hframe.bytes a ha False.elim⟩

/-! ## PASS2A and PASS2B -/

/-- A ready plane with a legal and mapped weight map, and a threshold that the reference passes. -/
structure Pass2Ready (s : State) : Prop where
  launch : LaunchReady s
  wmap : WmapMapped s
  wmapOk : wmapOk s.cfg = true
  thr : 1 ≤ s.dp.thr.toNat

/-- The frame of a pass, with the threshold kept. -/
structure Pass2Frame (map : Prop) (s t : State) : Prop extends PassFrame map s t where
  thr : t.dp.thr = s.dp.thr

section
variable {map : Prop} {s u : State}

theorem pass2Frame_refl (s : State) : Pass2Frame map s s := ⟨passFrame_refl s, rfl⟩

theorem pass2Frame_trans {t : State} (h : Pass2Frame map s t) (h' : Pass2Frame map t u) : Pass2Frame map s u :=
  ⟨passFrame_trans h.toPassFrame h'.toPassFrame, h'.thr.trans h.thr⟩

theorem pass2Ready_congr (h : Pass2Frame map s u) (hs : Pass2Ready s) : Pass2Ready u where
  launch := launchReady_congr h.toSameButScan hs.launch
  wmap := wmapMapped_congr h.cfg h.plat hs.wmap
  wmapOk := by rw [h.cfg]; exact hs.wmapOk
  thr := by rw [h.thr]; exact hs.thr

theorem tile2aOp_ready {i j : Nat} (hs : Pass2Ready s) (hgeom : geomOk s.cfg .p2a 0 = true)
    (htile : AtTile s .p2a 0 i j) : ∃ t, tile2aOp s = .ok () t ∧ t.dp.thr = s.dp.thr := by
  obtain ⟨u, hdone, hrun⟩ := tile2a_ready hs.launch hs.wmap hs.wmapOk hgeom (inWalk_of_atTile htile)
    htile.clamped hs.thr
  exact ⟨_, hrun, hdone.thr⟩

/-- A tile below `TP1` is skipped, and any other is refined. -/
theorem tile2bOp_ready {k i j : Nat} (hs : Pass2Ready s) (hgeom : geomOk s.cfg .p2b k = true)
    (htile : AtTile s .p2b k i j) : ∃ t, tile2bOp s = .ok () t ∧ t.dp.thr = s.dp.thr := by
  have hwalk := inWalk_of_atTile htile
  obtain ⟨htx, hty⟩ := inWalk_p2b hwalk
  obtain ⟨hentry, hdom⟩ := tileEntry_ok hs.wmapOk hs.wmap htx hty
  have hop := tile2bOp_eq htile.agg hentry hdom
  obtain ⟨t, hdone⟩ := tile2b_ready hs.launch (by rwa [htile.agk]) (by rwa [htile.agk]) htile.clamped hs.thr
  split at hop
  case isTrue =>
    have hpack : packOp s.ag.agk.toNat s = .ok () (s.setWw (packWord s.ag.agk.toNat)) := rfl
    exact ⟨t, hop.trans ((op_bind_ok hpack).trans hdone.run), hdone.thr⟩
  case isFalse => exact ⟨s, hop, rfl⟩

/-- A walk of pass 2 whose tiles complete from every ready state. -/
theorem pass2Walk_ready {g : Geometry} {k : Nat} {tile : Op Unit} (hk : k < 16) (hs : Pass2Ready s)
    (hgeom : geomOk s.cfg g k = true) (hframe : Keeps (TileFrame map) tile)
    (htile : ∀ {u i j}, Pass2Ready u → geomOk u.cfg g k = true → AtTile u g k i j →
      ∃ t, tile u = .ok () t ∧ t.dp.thr = u.dp.thr) :
    ∃ t, walkOp g k tile s = .ok () t ∧ Pass2Frame map s t ∧ t.ag.agdone = true := by
  have hI : WalkInvariant s.cfg g k tile fun _ => Pass2Frame map s :=
    { cfg := fun h => h.cfg
      move := fun ag h => ⟨passFrame_move h.toPassFrame ag, h.thr⟩
      tile := fun {u i j} hat hu => by
        obtain ⟨t, hrun, hthr⟩ := htile (pass2Ready_congr hu hs) (by rwa [hu.cfg]) hat
        have hstep := tileFrame_of_ok hframe hrun
        exact ⟨t, hrun, hstep.ag, pass2Frame_trans hu ⟨passFrame_of_tileFrame hstep, hthr⟩⟩ }
  exact walkOp_ok hI hgeom hk (pass2Frame_refl s)

theorem sweepsOp_ready {ks : List Nat} (hks : ∀ k ∈ ks, 1 ≤ k ∧ k ≤ 8) (hs : Pass2Ready s)
    (hw : 8 ≤ s.cfg.width.toNat) (hh : 8 ≤ s.cfg.height.toNat) (hlast : s.ag.agdone = true ∨ ks ≠ []) :
    ∃ t, sweepsOp ks s = .ok () t ∧ Pass2Frame False s t ∧ t.ag.agdone = true := by
  induction ks generalizing s with
  | nil => exact ⟨s, rfl, pass2Frame_refl s, hlast.resolve_right (not_not.2 rfl)⟩
  | cons k ks ih =>
    obtain ⟨⟨hk1, hk8⟩, hrest⟩ := List.forall_mem_cons.1 hks
    have hgeom : geomOk s.cfg .p2b k = true := by simp [geomOk, paramOk, dimOk, hk1, hk8, hw, hh]
    obtain ⟨t, hrun, hframe, hdone⟩ :=
      pass2Walk_ready (by omega) hs hgeom tileFrame_tile2bOp tile2bOp_ready
    obtain ⟨u, hsweeps, hframe', hdone'⟩ := ih hrest (pass2Ready_congr hframe hs) (by rwa [hframe.cfg])
      (by rwa [hframe.cfg]) (.inl hdone)
    exact ⟨u, (op_bind_ok hrun).trans hsweeps, pass2Frame_trans hframe hframe', hdone'⟩

end

theorem capValue_toNat (tmax : Half) : (capValue tmax).toNat = max 1 tmax.toNat := by
  have htmax := tmax.isLt
  exact Nat.mod_eq_of_lt (by omega)

/-- The opening of a sub-pass whose configuration fits. -/
theorem pass2Open_ok {s : State} (hplane : planeOk s.cfg false = true) (hok : wmapOk s.cfg = true) :
    pass2Open s = .ok () (s.setThr (capValue s.cfg.tmax)) := by
  rw [pass2Open, op_bind_ok (op_get s), hplane, hok]
  rfl

theorem pass2Ready_open {s : State} (hready : LaunchReady s) (hmap : WmapMapped s) (hok : wmapOk s.cfg = true) :
    Pass2Ready (s.setThr (capValue s.cfg.tmax)) where
  launch := launchReady_congr (s := s) ⟨rfl, rfl, rfl, rfl, rfl, rfl⟩ hready
  wmap := hmap
  wmapOk := hok
  thr := (le_max_left 1 _).trans_eq (capValue_toNat s.cfg.tmax).symm

/-- Both sub-passes complete on a ready plane of their size. -/
theorem pass2_ready {i : Instr} {s : State} (hi : i = .pass2a ∨ i = .pass2b) (hready : LaunchReady s)
    (hmap : WmapMapped s) (hplane : planeOk s.cfg false = true) (hok : wmapOk s.cfg = true)
    (hw : (if i = .pass2a then 6 else 8) ≤ s.cfg.width.toNat)
    (hh : (if i = .pass2a then 6 else 8) ≤ s.cfg.height.toNat) :
    ∃ t, opOf i s = .ok () t ∧ Pass2Frame (i = .pass2a) (s.setThr (capValue s.cfg.tmax)) t ∧
      t.ag.agdone = true := by
  have hs := pass2Ready_open hready hmap hok
  have hopen := pass2Open_ok hplane hok
  obtain rfl | rfl := hi
  case inl =>
    have hgeom : geomOk s.cfg .p2a 0 = true := by simpa [geomOk, paramOk, dimOk] using And.intro hw hh
    obtain ⟨t, hrun, hframe⟩ :=
      pass2Walk_ready (by decide) hs hgeom tileFrame_tile2aOp tile2aOp_ready
    rw [eq_true (rfl : Instr.pass2a = .pass2a)]
    exact ⟨t, (op_bind_ok hopen).trans hrun, hframe⟩
  case inr =>
    obtain ⟨t, hrun, hframe⟩ := sweepsOp_ready (ks := [1, 2, 3, 4, 5, 6, 7, 8]) (by decide) hs hw hh
      (.inr (by decide))
    rw [eq_false (nofun : ¬ Instr.pass2b = .pass2a)]
    exact ⟨t, (op_bind_ok hopen).trans hrun, hframe⟩

/-- Settles O54: from the threshold that a sub-pass sets, its walks complete within the frame of a pass. -/
theorem pass2Completes : Obligations.Pass2Completes := by
  intro i s hi
  refine ⟨exec_pass2_error hi, fun hready hmap hplane hok hw hh => ?_⟩
  obtain ⟨t, hrun, hframe, hdone⟩ := pass2_ready hi hready hmap hplane hok hw hh
  exact ⟨t, exec_of_ok hrun, { hframe.toSameButScan with }, hdone,
    (congrArg BitVec.toNat hframe.thr).trans (capValue_toNat _), hframe.bytes⟩

end Sys2Proof.Machine

/-! # PASS1 writes the whole plane

Every tile of `PASS1` stores its base block, whatever its mode, and no operation unlists a byte of memory. The
base blocks of the walk cover the plane, so a pass that ends without a fault has written every sample
(45_scan_driver.md R208, R216). -/

namespace Sys2Proof.Machine

/-! ## Written bytes stay written -/

/-- Every byte that memory lists in `s` it lists in `t`. -/
def MemGrows (s t : State) : Prop := ∀ a, (memFind s.mem a).isSome = true → (memFind t.mem a).isSome = true

theorem memGrows_frame : Frame MemGrows where
  refl _ _ h := h
  trans _ _ _ h h' a ha := h' a (h a ha)

theorem memGrows_of_update {wf : Prop} {W : Reg → Bool} {s t : State} (h : Update wf W s t) :
    MemGrows s t := by
  intro a ha
  obtain hsame | ⟨b, v, -, hput⟩ := update_mem h
  · rwa [hsame]
  · rw [hput]
    obtain rfl | hne := eq_or_ne a b
    · rw [memFind_memPut_same]
      rfl
    · rwa [memFind_memPut_other _ _ _ _ hne]

/-- An operation that runs as updates, of whatever registers. -/
theorem memGrows_of_updates {α : Type} {op : Op α} (h : Keeps (Updates True fun _ => true) op) :
    Keeps MemGrows op := by
  intro s
  have hrun := h s
  generalize endState (op s) = t at hrun ⊢
  induction hrun with
  | refl => exact memGrows_frame.refl s
  | tail _ hstep ih => exact memGrows_frame.trans _ _ _ ih (memGrows_of_update hstep)

theorem admitsScan_all : AdmitsScan fun _ => true := ⟨rfl, rfl, rfl, fun _ _ => rfl⟩

/-! ## Operations that store the base block -/

/-- After the operation memory lists a byte for each lane of the base block. -/
def ListsBase {α : Type} (op : Op α) : Prop :=
  ∀ s a t, op s = .ok a t → ∀ r c, (memFind t.mem (laneIndex s r c)).isSome = true

section
variable {α β : Type}

theorem op_bind_inv {x : Op α} {f : α → Op β} {s u : State} {b : β} (h : (x >>= f) s = .ok b u) :
    ∃ a t, x s = .ok a t ∧ f a t = .ok b u := by
  rw [op_bind] at h
  split at h
  · exact ⟨_, _, ‹_›, h⟩
  · cases h

/-- What comes before and keeps the anchors. -/
theorem listsBase_after {x : Op α} {f : α → Op β} (hx : Keeps (TileFrame False) x)
    (hf : ∀ a, ListsBase (f a)) : ListsBase (x >>= f) := by
  intro s b u h r c
  obtain ⟨a, t, hrun, hrest⟩ := op_bind_inv h
  have hframe := hx s
  rw [hrun] at hframe
  have hlane : laneIndex s r c = laneIndex t r c := by
    simp only [laneIndex, baseLane, show t.cfg = s.cfg from hframe.cfg, show t.ag = s.ag from hframe.ag]
  rw [hlane]
  exact hf a t b u hrest r c

/-- What follows. -/
theorem listsBase_before {x : Op α} {f : α → Op β} (hx : ListsBase x) (hf : ∀ a, Keeps MemGrows (f a)) :
    ListsBase (x >>= f) := by
  intro s b u h r c
  obtain ⟨a, t, hrun, hrest⟩ := op_bind_inv h
  have hgrows := hf a t
  rw [hrest] at hgrows
  exact hgrows _ (hx s a t hrun r c)

theorem listsBase_get {f : State → Op β} (hf : ∀ s, ListsBase (f s)) : ListsBase (get >>= f) :=
  listsBase_after (keeps_get tileFrame_frame) hf

theorem listsBase_raise (c : Cause) : ListsBase (raise c : Op α) := fun s a t h => by
  rw [op_raise] at h
  cases h

theorem listsBase_ite {p : Prop} [Decidable p] {x y : Op α} (hx : ListsBase x) (hy : ListsBase y) :
    ListsBase (if p then x else y) := by
  split <;> assumption

end

/-- A lane of a store that completed wrote its own byte and nothing else. -/
theorem storeLane_inv {q n : Nat} {r c : Fin 4} {s t : State} (h : storeLane q r c s = .ok n t) :
    ∃ v, t = s.setMem (memPut s.mem (laneIndex s r c) v) := by
  rw [storeLane, op_bind_ok (op_get s)] at h
  obtain ⟨a, u, hwrite, hpure⟩ := op_bind_inv h
  cases hpure
  exact ⟨_, ((wrpx_ok_iff _ _ _ _ _).1 hwrite).2⟩

/-- A run of stores over some lanes lists the bytes of these lanes. -/
theorem eachLane_storeLane_lists {q : Nat} {ls : List (Fin 4 × Fin 4)} {s t : State} {n : Nat}
    (h : eachLane (storeLane q) ls s = .ok n t) :
    ∀ l ∈ ls, (memFind t.mem (laneIndex s l.1 l.2)).isSome = true := by
  induction ls generalizing s n with
  | nil => exact fun l hl => absurd hl (List.not_mem_nil)
  | cons l ls ih =>
    obtain ⟨m, u, hlane, hrest⟩ := op_bind_inv h
    obtain ⟨k, v, hls, hpure⟩ := op_bind_inv hrest
    cases hpure
    obtain ⟨w, rfl⟩ := storeLane_inv hlane
    have hgrows := memGrows_of_updates (keeps_eachLane updates_frame (keeps_storeLane q) ls)
      (s.setMem (memPut s.mem (laneIndex s l.1 l.2) w))
    rw [hls] at hgrows
    have htail := ih hls
    refine List.forall_mem_cons.2 ⟨hgrows _ ?_, htail⟩
    rw [State.setMem_mem, memFind_memPut_same]
    rfl

theorem listsBase_storeOp : ListsBase storeOp := by
  intro s a t h r c
  obtain ⟨q, u, hq, hrest⟩ := op_bind_inv h
  obtain ⟨-, rfl⟩ := look_inv hq
  obtain ⟨n, v, hlanes, hpure⟩ := op_bind_inv hrest
  cases hpure
  exact eachLane_storeLane_lists hlanes (r, c) (mem_lanes _)

theorem listsBase_filtOp (r : Nat) : ListsBase (filtOp r) :=
  listsBase_after tileFrame_clraOp fun _ => listsBase_after (tileFrame_scanOp _ _ _ _) fun _ =>
    listsBase_storeOp

theorem listsBase_afiltOp (r : Nat) : ListsBase (afiltOp r) :=
  listsBase_after tileFrame_clraOp fun _ => listsBase_after (tileFrame_scanOp _ _ _ _) fun _ =>
    listsBase_get fun _ => listsBase_ite
      (listsBase_after (tileFrame_scanOp _ _ _ _) fun _ => listsBase_get fun _ => listsBase_ite
        (listsBase_after (tileFrame_scanOp _ _ _ _) fun _ => listsBase_storeOp) listsBase_storeOp)
      listsBase_storeOp

theorem memGrows_temporalBlends (r : Nat) : Keeps MemGrows (temporalBlends r) := by
  have hblend : ∀ k p, Keeps MemGrows (temporalBlend r k p) :=
    fun k p => memGrows_of_updates (keeps_temporalBlend admitsScan_all rfl r k p)
  have hget := fun {g : State → Op Unit} =>
    keeps_bind (β := Unit) (f := g) memGrows_frame (keeps_get memGrows_frame)
  have hnext : ∀ k, Keeps MemGrows (nextBlend r k) := fun k =>
    hget fun _ => hget fun _ => keeps_ite (hblend k .next) (keeps_pure memGrows_frame ())
  exact hget fun _ => hget fun _ =>
    keeps_ite (keeps_bind memGrows_frame (hblend 1 .prev) fun _ => hnext 2) (hnext 1)

theorem listsBase_tile1Op : ListsBase tile1Op := by
  have hthresh : Keeps (TileFrame False) threshOp := keeps_modify fun s => tileFrame_datapath s _
  have hdmin : Keeps (TileFrame False) dminOp := keeps_modify fun s => tileFrame_datapath s _
  have htemporal : ∀ r, ListsBase (tile1Temporal r) := fun r => tile1Temporal_eq r ▸
    listsBase_before (listsBase_filtOp 0) fun _ => memGrows_temporalBlends r
  refine listsBase_get fun _ => listsBase_ite (listsBase_raise _) (listsBase_after tileFrame_devlOp fun _ =>
    listsBase_ite ?temporal ?spatial)
  case temporal =>
    exact listsBase_after (tileFrame_bsadOp _) fun _ => listsBase_after (tileFrame_bsadOp _) fun _ =>
      listsBase_after hdmin fun _ => listsBase_after hthresh fun _ => htemporal _
  case spatial =>
    exact listsBase_after hthresh fun _ => listsBase_ite (listsBase_afiltOp _) (listsBase_filtOp _)

/-! ## The pass -/

/-- With `m` tiles behind the walk, memory lists the samples on those tiles. -/
structure Covered (c : CfgRegs) (m : Nat) (s : State) : Prop where
  cfg : s.cfg = c
  listed : ∀ x, x < c.width.toNat → ∀ y, y < c.height.toNat → tileOf c x y < m →
    (memFind s.mem (linearAddr c .dst x y)).isSome = true

theorem tile1Op_covers {s t : State} {i j : Nat} (hgeom : geomOk s.cfg .p1 0 = true)
    (htile : AtTile s .p1 0 i j)
    (hs : Covered s.cfg (j * tilesAcross .p1 0 s.cfg + i) s) (hrun : tile1Op s = .ok () t) :
    Covered s.cfg (j * tilesAcross .p1 0 s.cfg + i + 1) t := by
  have hgrows := memGrows_of_updates (keeps_tile1Op ⟨admitsScan_all, rfl, rfl, rfl, rfl, rfl⟩) s
  rw [hrun] at hgrows
  refine ⟨(tileFrame_of_ok (map := False) tileFrame_tile1Op hrun).cfg, fun x hx y hy hlt => ?_⟩
  obtain hbefore | hcurrent := Nat.lt_succ_iff_lt_or_eq.1 hlt
  · exact hgrows _ (hs.listed x hx y hy hbefore)
  · obtain ⟨hyj, hxi⟩ := raster_injective (column_lt_tilesAcross hx) htile.column hcurrent
    obtain ⟨r, k, hlane⟩ := laneIndex_of_atTile htile hgeom hx hy hxi hyj
    exact hlane ▸ listsBase_tile1Op s () t hrun r k

theorem covered_walkSteps {c : CfgRegs} (hgeom : geomOk c .p1 0 = true) :
    WalkSteps c .p1 0 tile1Op (Covered c) fun _ _ => True where
  cfg h := h.cfg
  tile {s i j} htile hs := by
    obtain rfl := hs.cfg
    cases hrun : tile1Op s with
    | error e t => exact ends_of_error hrun trivial
    | ok a t =>
      have hframe := tileFrame_of_ok (map := False) tileFrame_tile1Op hrun
      have ht := tile1Op_covers hgeom htile hs hrun
      exact ends_of_ok hrun ⟨hframe.cfg, hframe.ag, fun _ _ => ⟨ht.cfg, ht.listed⟩⟩

/-- A pass that runs to its end had a configuration that fits. -/
theorem pass1Op_inv {s t : State} (h : pass1Op s = .ok () t) :
    geomOk s.cfg .p1 0 = true ∧ walkOp .p1 0 tile1Op s = .ok () t := by
  cases hgeom : geomOk s.cfg .p1 0 with
  | false => simp [pass1Op_error (.inr hgeom)] at h
  | true =>
    refine ⟨rfl, ?_⟩
    rw [pass1Op, op_bind_ok (op_get s)] at h
    split at h
    · exact h
    · cases h

/-- Settles O58: the samples on the tiles behind the walk are listed, and at its end these are all samples. -/
theorem pass1WritesTheWholePlane : Obligations.Pass1WritesTheWholePlane := by
  intro s
  obtain ⟨t, hexec⟩ := exec_total .pass1 s
  refine ⟨t, hexec, fun ht x hx y hy => ?writes, fun hready hplane hgeom hspatial => ?ends⟩
  case writes =>
    obtain ⟨hgeom, hwalk⟩ := pass1Op_inv (opOf_ok_of_running hexec ht)
    have hends := walkOp_ends (covered_walkSteps hgeom) hgeom (by decide) rfl
      (fun _ _ => ⟨rfl, fun _ _ _ _ => nofun⟩)
    exact (ends_ok hends hwalk).1.listed x hx y hy (tileOf_lt_total hx hy)
  case ends =>
    obtain ⟨u, hrun, hframe, -⟩ := pass1_ready hready hplane hgeom hspatial
    cases (exec_of_ok (i := .pass1) hrun).symm.trans hexec
    rw [Running, hframe.flt]
    exact hready.running

end Sys2Proof.Machine

/-! # Operations as sequences of commands

A host that issues the parts of an operation one by one stops at the first fault, as the operation does; then the
two states differ only in the command word that `FINFO` holds (45_scan_driver.md R219, R221, 60_exceptions.md
R253, R258). -/

namespace Sys2Proof.Machine

/-! ## Pseudocode that follows its commands -/

/-- No update writes the configuration or the fault record. -/
theorem update_cfg_flt {wf : Prop} {W : Reg → Bool} {s t : State} (h : Update wf W s t) :
    t.cfg = s.cfg ∧ t.flt = s.flt := by
  cases h with
  | table => exact ⟨State.setTable_cfg s recipTable, State.setTable_flt s recipTable⟩
  | _ => exact ⟨rfl, rfl⟩

theorem keepsCfgFlt_of_updates {α : Type} {wf : Prop} {W : Reg → Bool} {op : Op α}
    (h : Keeps (Updates wf W) op) : Keeps (fun s t => t.cfg = s.cfg ∧ t.flt = s.flt) op := by
  intro s
  have hrun := h s
  generalize endState (op s) = t at hrun ⊢
  induction hrun with
  | refl => exact ⟨rfl, rfl⟩
  | tail _ hstep ih =>
    obtain ⟨hcfg, hflt⟩ := update_cfg_flt hstep
    exact ⟨hcfg.trans ih.1, hflt.trans ih.2⟩

/-- From `s`, pseudocode and commands complete in the same state, or stop at the same fault. -/
def Follows (op : Op Unit) (is : List Instr) (s : State) : Prop :=
  Running s → Ends op s (fun t => Running t ∧ execSeq is s = t)
    fun c t => Running t ∧ ∃ w, execSeq is s = takeFault t c w

section
variable {s : State}

/-- The commands after a fault are not executed. -/
theorem execSeq_append_faulted {is : List Instr} {t : State} {c : Cause} {w : Word}
    (h : execSeq is s = takeFault t c w) (js : List Instr) : execSeq (is ++ js) s = takeFault t c w := by
  rw [execSeq_append, h, execSeq_faulted (takeFault_fault t c w)]

theorem follows_pure : Follows (pure ()) [] s := fun hs => ends_of_ok rfl ⟨hs, rfl⟩

theorem follows_instr (i : Instr) : Follows (opOf i) [i] s := by
  intro hs
  have hkept := keepsCfgFlt_of_updates (keeps_opOf i) s
  cases hrun : opOf i s with
  | ok a t =>
    rw [hrun] at hkept
    have ht : Running t := (congrArg FaultRegs.fault hkept.2).trans hs
    exact ends_of_ok hrun ⟨ht, execSeq_cons_ok hs hrun⟩
  | error c t =>
    rw [hrun] at hkept
    have ht : Running t := (congrArg FaultRegs.fault hkept.2).trans hs
    exact ends_of_error hrun ⟨ht, encode i, execSeq_cons_next hs (exec_of_error hrun)⟩

theorem follows_bind {x : Op Unit} {f : Unit → Op Unit} {is js : List Instr} (hx : Follows x is s)
    (hf : ∀ t, x s = .ok () t → Follows (f ()) js t) : Follows (x >>= f) (is ++ js) s := by
  intro hs
  have hend := hx hs
  cases hrun : x s with
  | ok a t =>
    rw [Ends, hrun] at hend
    obtain ⟨ht, hseq⟩ := hend
    rw [Ends, op_bind_ok hrun, execSeq_append, hseq]
    exact hf t hrun ht
  | error c t =>
    rw [Ends, hrun] at hend
    obtain ⟨ht, w, hseq⟩ := hend
    exact ends_of_error (op_bind_error hrun) ⟨ht, w, execSeq_append_faulted hseq js⟩

/-- A command whose pseudocode is, from `s`, one that follows a sequence from `u`. -/
theorem sameButFinfo_of_follows {i : Instr} {op : Op Unit} {is : List Instr} {u : State} (hop : opOf i s = op u)
    (hu : Running u) (h : Follows op is u) : ∃ t, exec i s = .next t ∧ SameButFinfo t (execSeq is u) := by
  have hend := h hu
  cases hrun : op u with
  | ok a t =>
    rw [Ends, hrun] at hend
    obtain ⟨-, hseq⟩ := hend
    rw [hseq]
    exact ⟨t, exec_of_ok (hop.trans hrun), rfl⟩
  | error c t =>
    rw [Ends, hrun] at hend
    obtain ⟨ht, w, hseq⟩ := hend
    rw [hseq]
    refine ⟨_, exec_of_error (hop.trans hrun), ?_⟩
    simp [SameButFinfo, takeFault, ht, State.setFlt]

/-! ## Walks -/

theorem admitsPass_all : AdmitsPass fun _ => true :=
  ⟨⟨⟨rfl, rfl, rfl, rfl⟩, rfl, rfl⟩, admitsScan_all, rfl, rfl, rfl⟩

/-- The commands of a walk with `m` tiles. -/
def walkPrefix (g : Geometry) (k : Nat) (i : Instr) (m : Nat) : List Instr :=
  .agstart g k :: (List.replicate m [i, .agnext]).flatten

theorem walkPrefix_add (g : Geometry) (k : Nat) (i : Instr) (m n : Nat) :
    walkPrefix g k i (m + n) = walkPrefix g k i m ++ (List.replicate n [i, .agnext]).flatten := by
  simp only [walkPrefix, List.replicate_add, List.flatten_append, List.cons_append]

/-- The state that the first `m` tiles lead to, without a fault. -/
structure Issued (s : State) (g : Geometry) (k : Nat) (i : Instr) (m : Nat) (u : State) : Prop where
  cfg : u.cfg = s.cfg
  running : Running u
  commands : execSeq (walkPrefix g k i m) s = u

theorem issued_walkSteps {g : Geometry} {k : Nat} {i : Instr} {map : Prop}
    (hframe : Keeps (TileFrame map) (opOf i)) :
    WalkSteps s.cfg g k (opOf i) (Issued s g k i) fun c t => Running t ∧
      ∃ w, execSeq (walkCommands g k i s.cfg) s = takeFault t c w where
  cfg h := h.cfg
  tile {u a b} htile hu := by
    have hend := follows_instr i hu.running
    have hlt := atTile_lt_total htile
    rw [hu.cfg] at hlt
    generalize b * tilesAcross g k s.cfg + a = m at hu hlt ⊢
    cases hrun : opOf i u with
    | ok e t =>
      rw [Ends, hrun] at hend
      obtain ⟨ht, hseq⟩ := hend
      have hstep := tileFrame_of_ok hframe hrun
      refine ends_of_ok hrun ⟨hstep.cfg, hstep.ag, fun ag hnext => ⟨hstep.cfg.trans hu.cfg, ht, ?_⟩⟩
      calc execSeq (walkPrefix g k i (m + 1)) s
        _ = execSeq ([i] ++ [.agnext]) u := by rw [walkPrefix_add, execSeq_append, hu.commands]; rfl
        _ = execSeq [.agnext] t := by rw [execSeq_append, hseq]
        _ = { t with ag := ag } := execSeq_cons_ok ht hnext
    | error c t =>
      rw [Ends, hrun] at hend
      obtain ⟨ht, w, hseq⟩ := hend
      refine ends_of_error hrun ⟨ht, w, ?_⟩
      obtain ⟨n, hn⟩ := Nat.exists_eq_add_of_lt hlt
      calc execSeq (walkCommands g k i s.cfg) s
        _ = execSeq (walkPrefix g k i (m + (n + 1))) s := by rw [← Nat.add_assoc, ← hn]; rfl
        _ = execSeq ([i] ++ .agnext :: (List.replicate n [i, .agnext]).flatten) u := by
          rw [walkPrefix_add, execSeq_append, hu.commands]; rfl
        _ = takeFault t c w := execSeq_append_faulted hseq _

/-- A walk follows its commands, a geometry that does not fit included. -/
theorem follows_walkOp {g : Geometry} {k : Nat} (hk : k < 16) {i : Instr} {map : Prop}
    (hframe : Keeps (TileFrame map) (opOf i)) : Follows (walkOp g k (opOf i)) (walkCommands g k i s.cfg) s := by
  intro hs
  cases hgeom : geomOk s.cfg g k with
  | false =>
    have hstart : execSeq [.agstart g k] s = takeFault s .cfg (encode (.agstart g k)) :=
      execSeq_cons_next hs (exec_of_error (agstartOp_error hgeom))
    exact ends_of_error (walkOp_error hgeom) ⟨hs, _, execSeq_append_faulted hstart _⟩
  | true =>
    refine ends_imp (walkOp_ends (issued_walkSteps hframe) hgeom hk rfl fun ag hstart => ⟨rfl, hs, ?_⟩)
      (fun t ht => ⟨ht.1.running, ht.1.commands⟩) fun _ _ => id
    exact execSeq_cons_ok hs hstart

theorem follows_sweepsOp {ks : List Nat} (hks : ∀ k ∈ ks, walkOk .p2b k = true) :
    Follows (sweepsOp ks) (ks.flatMap fun k => walkCommands .p2b k .tile2b s.cfg) s := by
  induction ks generalizing s with
  | nil => exact follows_pure
  | cons k ks ih =>
    obtain ⟨hk, hrest⟩ := List.forall_mem_cons.1 hks
    rw [List.flatMap_cons]
    refine follows_bind (follows_walkOp (i := .tile2b) (walkOk_lt hk) (tileFrame_tile2bOp (map := False)))
      fun t hrun => ?_
    have hkept := keepsCfgFlt_of_updates (keeps_walk (wf := True) admitsPass_all hk
      (keeps_tile2bOp admitsScan_all rfl)) s
    rw [show walkOp .p2b k tile2bOp s = .ok () t from hrun] at hkept
    rw [show s.cfg = t.cfg from hkept.1.symm]
    exact ih hrest

end

/-! ## The passes -/

theorem pass1Op_eq_walkOp {s : State} (hplane : planeOk s.cfg (modeT s.cfg) = true) :
    pass1Op s = walkOp .p1 0 (opOf .tile1) s := by
  rw [pass1Op, op_bind_ok (op_get s), if_pos hplane]
  rfl

/-- Settles O57: each pass is, from the state in which its walks start, these walks. -/
theorem passesAreTheirTiles : Obligations.PassesAreTheirTiles := by
  intro s hs
  have hs' : Running (s.setThr (capValue s.cfg.tmax)) := hs
  refine ⟨fun hplane => ?pass1, fun hplane hok => ⟨?pass2a, ?pass2b⟩⟩
  case pass1 =>
    exact sameButFinfo_of_follows (pass1Op_eq_walkOp hplane) hs
      (follows_walkOp (by decide) (tileFrame_tile1Op (map := False)))
  case pass2a =>
    exact sameButFinfo_of_follows (op_bind_ok (pass2Open_ok hplane hok)) hs'
      (follows_walkOp (i := .tile2a) (by decide) tileFrame_tile2aOp)
  case pass2b =>
    exact sameButFinfo_of_follows (op_bind_ok (pass2Open_ok hplane hok)) hs' (follows_sweepsOp (by decide))

/-! ## RUNPLANE -/

theorem runplaneOp_error {s : State} (h : runplaneOk s.cfg = false) : runplaneOp s = .error .cfg s := by
  rw [runplaneOp, op_bind_ok (op_get s), h]
  rfl

/-- The passes of `RUNPLANE` in their order. -/
def planeOp (c : CfgRegs) : Op Unit := do
  pass1Op
  if modeAO c then
    pass2aOp
    pass2bOp

theorem runplaneOp_ok {s : State} (h : runplaneOk s.cfg = true) : runplaneOp s = planeOp s.cfg s := by
  rw [runplaneOp, op_bind_ok (op_get s), if_pos h]
  rfl

theorem follows_planeOp {s : State} (c : CfgRegs) : Follows (planeOp c) (planeCommands c) s := by
  unfold planeCommands planeOp
  split
  · exact follows_bind (is := [.pass1]) (follows_instr .pass1) fun _ _ =>
      follows_bind (is := [.pass2a]) (follows_instr .pass2a) fun _ _ => follows_instr .pass2b
  · exact follows_bind (is := [.pass1]) (follows_instr .pass1) fun _ _ => follows_pure

theorem runplaneOk_iff {c : CfgRegs} : runplaneOk c = true ↔ planeOk c (modeT c) = true ∧
    geomOk c .p1 0 = true ∧
    (modeAO c = true → wmapOk c = true ∧ 8 ≤ c.width.toNat ∧ 8 ≤ c.height.toNat) := by
  cases hAO : modeAO c <;> simp [runplaneOk, hAO, and_assoc]

/-- A sub-pass completes on a plane that was ready before the operations that led to `u`. -/
theorem pass2_ready_again {i : Instr} {s u : State} (hi : i = .pass2a ∨ i = .pass2b) (hu : SameButScan s u)
    (hready : LaunchReady s) (hmap : WmapMapped s) (hplane : planeOk s.cfg false = true)
    (hok : wmapOk s.cfg = true) (hw : 8 ≤ s.cfg.width.toNat) (hh : 8 ≤ s.cfg.height.toNat) :
    ∃ v, opOf i u = .ok () v ∧ SameButScan s v := by
  have hsize : (if i = .pass2a then 6 else 8) ≤ 8 := by split <;> omega
  rw [← hu.cfg] at hplane hok hw hh
  obtain ⟨v, hrun, hframe, -⟩ := pass2_ready hi (launchReady_congr hu hready)
    (wmapMapped_congr hu.cfg hu.plat hmap) hplane hok (hsize.trans hw) (hsize.trans hh)
  exact ⟨v, hrun, sameButScan_trans hu { hframe.toSameButScan with }⟩

/-- On a ready plane without temporal mode every pass of `RUNPLANE` completes. -/
theorem planeOp_ready {s : State} (hok : runplaneOk s.cfg = true) (hready : LaunchReady s)
    (hspatial : modeT s.cfg = false) (hmap : modeAO s.cfg = true → WmapMapped s) :
    ∃ t, planeOp s.cfg s = .ok () t ∧ SameButScan s t := by
  obtain ⟨hplane, hgeom, hwmap⟩ := runplaneOk_iff.1 hok
  rw [hspatial] at hplane
  obtain ⟨t, hpass1, hframe, -⟩ := pass1_ready hready hplane hgeom hspatial
  unfold planeOp
  split
  case isFalse => exact ⟨t, op_bind_ok hpass1, hframe.toSameButScan⟩
  case isTrue hAO =>
    obtain ⟨hwok, hw, hh⟩ := hwmap hAO
    have hpass := fun {i : Instr} (hi : i = .pass2a ∨ i = .pass2b) {u} (hu : SameButScan s u) =>
      pass2_ready_again hi hu hready (hmap hAO) hplane hwok hw hh
    obtain ⟨u, hpass2a, hu⟩ := hpass (.inl rfl) hframe.toSameButScan
    obtain ⟨v, hpass2b, hv⟩ := hpass (.inr rfl) hu
    have hpass2a' : pass2aOp t = .ok () u := hpass2a
    exact ⟨v, (op_bind_ok hpass1).trans ((op_bind_ok hpass2a').trans hpass2b), hv⟩

/-- Settles O55: the passes in their order, up to the first fault. -/
theorem runplaneRunsItsPasses : Obligations.RunplaneRunsItsPasses := by
  intro s
  refine ⟨fun hbad => exec_of_error (runplaneOp_error hbad), fun hok hs => ?_⟩
  obtain ⟨t, hexec, hsame⟩ :=
    sameButFinfo_of_follows (i := .runplane) (runplaneOp_ok hok) hs (follows_planeOp s.cfg)
  refine ⟨t, hexec, hsame, fun hready hspatial hmap => ?_⟩
  obtain ⟨u, hrun, hframe⟩ := planeOp_ready hok hready hspatial hmap
  cases (exec_of_ok (i := .runplane) ((runplaneOp_ok hok).trans hrun)).symm.trans hexec
  exact hframe

end Sys2Proof.Machine

/-! # The setup operations and the plain register operations

`RBUILD` ends in the table of 46_setup.md R241, whose entries are read once as numbers here; `NOP`, `CLRA` and
`DMIN` (R240, 42_masked_accumulator.md R151, 41_sad_threshold.md R136) end without reading memory. -/

namespace Sys2Proof.Machine

/-! ## The reciprocal table -/

theorem recipTable_length : recipTable.length = 1024 := by
  rw [recipTable, List.length_map, List.length_range, recipCount]

theorem recipAt_setTable_recipTable (s : State) {n : Nat} (hn : n < 1024) :
    recipAt (s.setTable recipTable).tab n = recipEntry n := by
  have hlen : n < recipCount := hn
  rw [recipAt, State.setTable_tab, recipTable]
  simp [hlen]

/-- From entry 2 on the rounded quotient is below 2^15, so its 16-bit entry holds it whole. -/
theorem recipEntry_toNat {n : Nat} (hn : 2 ≤ n) : (recipEntry n).toNat = (65536 + n) / (2 * n) := by
  have hfit : (65536 + n) / (2 * n) < 2 ^ 16 := (Nat.div_lt_iff_lt_mul (by omega)).2 (by omega)
  rw [recipEntry, if_neg (by omega), if_neg (by omega)]
  exact Nat.mod_eq_of_lt hfit

/-- Settles O21: the table `RBUILD` leaves, read entry by entry. -/
theorem rbuildBuildsTheTable : Obligations.RbuildBuildsTheTable := by
  intro s
  have hentry := fun n => recipAt_setTable_recipTable s (n := n)
  refine ⟨s.setTable recipTable, exec_of_ok rfl, ?_, rfl, ?_, ?_, ?_, rfl⟩
  · rw [State.setTable_tab, recipTable_length]
  · exact hentry 0 (by decide)
  · exact hentry 1 (by decide)
  · intro i hlo hhi
    rw [hentry i (by omega), recipEntry_toNat hlo]

/-! ## NOP, CLRA and DMIN -/

theorem exec_nop (s : State) : exec .nop s = .next s := exec_of_ok rfl

theorem exec_clra (s : State) : exec .clra s = .next { s with dp := cleared s.dp } :=
  exec_of_ok (clraOp_eq s)

/-- The smallest of the three deviations is one of them, so it fits their width. -/
theorem exec_dmin (s : State) : ∃ d : Half, exec .dmin s = .next (s.setDev d) ∧
    d.toNat = min s.dp.dev.toNat (min s.dp.devp.toNat s.dp.devn.toNat) :=
  ⟨_, exec_of_ok rfl, Nat.mod_eq_of_lt ((Nat.min_le_left _ _).trans_lt s.dp.dev.isLt)⟩

/-- Settles O20: the next state of each of the three operations. -/
theorem plainRegisterOperations : Obligations.PlainRegisterOperations := by
  intro s
  refine ⟨exec_nop s, ⟨_, exec_clra s, fun r c => ?_, rfl, rfl, rfl⟩, ?_⟩
  · exact BitVec.eq_of_toNat_eq (cleared_acc s.dp r c)
  · obtain ⟨d, hexec, hmin⟩ := exec_dmin s
    exact ⟨s.setDev d, hexec, hmin, rfl⟩

end Sys2Proof.Machine

/-! # The causes that an operation can raise

One pass over the operations (`raises_opOf`) shows of each that it raises only causes listed for it
(60_exceptions.md R252). The steps that a register or a read can fail at have their causes in `AdmitsAccess`,
`AdmitsWriteBack` and `AdmitsTile`. That no kernel raises `ACCOVF` is an argument about the scan: it starts with
cleared registers, and 49 candidates keep below every bound (`ScanRoom`). -/

namespace Sys2Proof.Machine

/-- A read that, where it fails, fails with a cause of `C`. -/
def FailsOnly {α : Type} (C : Cause → Prop) (x : Except Cause α) : Prop := ∀ c, x = .error c → C c

/-- Pseudocode that, from whatever state, raises causes of `C` only. -/
def Raises {α : Type} (C : Cause → Prop) (op : Op α) : Prop := ∀ s, Ends op s (fun _ => True) fun c _ => C c

/-- The causes of an access to memory (20_memory.md R72 to R77). -/
structure AdmitsAccess (C : Cause → Prop) : Prop where
  oob : C .oob
  aovf : C .aovf
  bus : C .bus

/-- The causes of a write-back (43_recip_blend.md R160). -/
structure AdmitsWriteBack (C : Cause → Prop) : Prop extends AdmitsAccess C where
  wzero : C .wzero
  rinvalid : C .rinvalid

/-- The causes of a tile: those of its kernels, and a configuration that does not fit. -/
structure AdmitsTile (C : Cause → Prop) : Prop extends AdmitsWriteBack C where
  cfg : C .cfg

section
variable {α β : Type} {C : Cause → Prop}

/-! ## Composition -/

theorem failsOnly_ok (a : α) : FailsOnly C (.ok a) := nofun

theorem failsOnly_error {e : Cause} (h : C e) : FailsOnly C (.error e : Except Cause α) := fun c hc => by
  cases hc
  exact h

theorem failsOnly_bind {x : Except Cause α} {f : α → Except Cause β} (hx : FailsOnly C x)
    (hf : ∀ a, FailsOnly C (f a)) : FailsOnly C (x >>= f) := by
  cases x with
  | ok a => exact hf a
  | error e => exact failsOnly_error (hx e rfl)

theorem raises_pure (a : α) : Raises C (pure a : Op α) := fun _ => trivial

theorem raises_raise {c : Cause} (h : C c) : Raises C (raise c : Op α) := fun _ => h

theorem raises_set (t : State) : Raises C (set t : Op PUnit) := fun _ => trivial

theorem raises_modify (f : State → State) : Raises C (modify f : Op PUnit) := fun _ => trivial

theorem raises_bind {x : Op α} {f : α → Op β} (hx : Raises C x) (hf : ∀ a, Raises C (f a)) :
    Raises C (x >>= f) :=
  fun s => ends_bind (hx s) fun a t _ => hf a t

theorem raises_get {f : State → Op β} (hf : ∀ s, Raises C (f s)) : Raises C (get >>= f) := fun s => hf s s

theorem raises_look {f : State → Except Cause α} {g : α → Op β} (hf : ∀ s, FailsOnly C (f s))
    (hg : ∀ a, Raises C (g a)) : Raises C (look f >>= g) := by
  refine raises_bind (fun s => ?_) hg
  cases h : f s with
  | ok a => exact ends_of_ok (look_ok h) trivial
  | error e => exact ends_of_error (look_error h) (hf s e h)

theorem raises_ite {p : Prop} [Decidable p] {x y : Op α} (hx : p → Raises C x) (hy : ¬ p → Raises C y) :
    Raises C (if p then x else y) := by
  split
  · exact hx ‹_›
  · exact hy ‹_›

/-! ## Reads and writes of memory -/

theorem failsOnly_sampleAddr (h : AdmitsAccess C) (c : CfgRegs) (p : Plane) (x y : Int) :
    FailsOnly C (sampleAddr c p x y) := by
  unfold sampleAddr
  split
  · split
    · exact failsOnly_error h.aovf
    · exact failsOnly_ok _
  · exact failsOnly_error h.oob

theorem failsOnly_memRead (h : AdmitsAccess C) (s : State) (a : Nat) : FailsOnly C (memRead s a) := by
  unfold memRead
  split
  · exact failsOnly_ok _
  · exact failsOnly_error h.bus

theorem failsOnly_px (h : AdmitsAccess C) (s : State) (p : Plane) (x y : Int) : FailsOnly C (px s p x y) := by
  have haddr := failsOnly_sampleAddr h s.cfg p x y
  unfold px
  split
  · exact failsOnly_memRead h s _
  · next e he => exact failsOnly_error (haddr e he)

theorem failsOnly_pxRow (h : AdmitsAccess C) (s : State) (p : Plane) (x y : Int) :
    FailsOnly C (pxRow s p x y) :=
  have hpx := failsOnly_px h s p
  failsOnly_bind (hpx _ _) fun _ => failsOnly_bind (hpx _ _) fun _ => failsOnly_bind (hpx _ _) fun _ =>
    failsOnly_bind (hpx _ _) fun _ => failsOnly_ok _

theorem failsOnly_candBlk (h : AdmitsAccess C) (s : State) (p : Plane) (a : Anchor) (dx dy : Int) :
    FailsOnly C (candBlk s p a dx dy) :=
  have hrow := failsOnly_pxRow h s p
  failsOnly_bind (hrow _ _) fun _ => failsOnly_bind (hrow _ _) fun _ => failsOnly_bind (hrow _ _) fun _ =>
    failsOnly_bind (hrow _ _) fun _ => failsOnly_ok _

theorem failsOnly_rcp (h : AdmitsWriteBack C) (s : State) : FailsOnly C (rcp s) := by
  unfold rcp
  split
  · split
    · exact failsOnly_error h.wzero
    · exact failsOnly_ok _
  · exact failsOnly_error h.rinvalid

theorem failsOnly_tileEntry (h : AdmitsTile C) (s : State) : FailsOnly C (tileEntry s) := by
  unfold tileEntry wmaddr
  split
  · split
    · exact failsOnly_error h.oob
    · split
      · exact failsOnly_error h.aovf
      · exact failsOnly_ok _
  · exact failsOnly_error h.cfg

/-- What follows the read of a block. -/
theorem raises_candBlk (h : AdmitsAccess C) {p : Plane} {a : Anchor} {dx dy : Int} {g : Block Byte → Op β}
    (hg : ∀ b, Raises C (g b)) : Raises C (look (fun s => candBlk s p a dx dy) >>= g) :=
  raises_look (fun s => failsOnly_candBlk h s p a dx dy) hg

theorem raises_memWrite (h : AdmitsAccess C) (a : Nat) (v : Byte) : Raises C (memWrite a v) := by
  intro s
  by_cases ha : s.inMemDom a = true
  · exact ends_of_ok (if_pos ha) trivial
  · exact ends_of_error (if_neg ha) h.bus

theorem raises_wrpx (h : AdmitsAccess C) (x y : Int) (v : Byte) : Raises C (wrpx x y v) :=
  raises_look (fun s => failsOnly_sampleAddr h s.cfg .dst x y) fun a => raises_memWrite h a v

/-! ## The accumulator, the SAD unit and the threshold operations -/

theorem raises_accrowOp (h : AdmitsAccess C) (hover : C .accovf) (cp : Plane) (ca : Anchor) (dx dy : Int)
    (row : Fin 4) : Raises C (accrowOp cp ca dx dy row) :=
  raises_get fun _ => raises_ite
    (fun _ => raises_look (fun s => failsOnly_pxRow h s cp _ _) fun _ => raises_get fun _ =>
      raises_ite (fun _ => raises_set _) fun _ => raises_raise hover)
    fun _ => raises_pure _

theorem raises_accblkOp (h : AdmitsAccess C) (hover : C .accovf) (cp : Plane) (ca : Anchor) (dx dy : Int) :
    Raises C (accblkOp cp ca dx dy) :=
  raises_get fun _ => raises_ite
    (fun _ => raises_candBlk h fun _ => raises_get fun _ =>
      raises_ite (fun _ => raises_set _) fun _ => raises_raise hover)
    fun _ => raises_pure _

theorem raises_sadOp (h : AdmitsAccess C) (rp : Plane) (ra : Anchor) (cp : Plane) (ca : Anchor) (dx dy : Int) :
    Raises C (sadOp rp ra cp ca dx dy) :=
  raises_candBlk h fun _ => raises_candBlk h fun _ => raises_modify _

theorem raises_cmpOp (hover : C .accovf) : Raises C cmpOp :=
  raises_get fun _ => raises_ite
    (fun _ => raises_ite (fun _ => raises_raise hover) fun _ => raises_set _) fun _ => raises_set _

theorem raises_ssaddOp (hover : C .accovf) : Raises C ssaddOp :=
  raises_get fun _ => raises_ite (fun _ => raises_raise hover) fun _ => raises_set _

theorem raises_bsadOp (h : AdmitsAccess C) (cp : Plane) : Raises C (bsadOp cp) :=
  raises_candBlk h fun _ => raises_candBlk h fun _ => raises_modify _

theorem raises_devlOp (h : AdmitsAccess C) : Raises C devlOp :=
  raises_get fun _ => raises_candBlk h fun _ => raises_candBlk h fun _ => raises_candBlk h fun _ =>
    raises_candBlk h fun _ => raises_modify _

/-! ## The write-back -/

theorem raises_eachLane {f : Fin 4 → Fin 4 → Op Nat} (hf : ∀ r c, Raises C (f r c))
    (ls : List (Fin 4 × Fin 4)) : Raises C (eachLane f ls) := by
  induction ls with
  | nil => exact raises_pure 0
  | cons l ls ih => exact raises_bind (hf l.1 l.2) fun _ => raises_bind ih fun _ => raises_pure _

theorem raises_storeLane (h : AdmitsAccess C) (q : Nat) (r c : Fin 4) : Raises C (storeLane q r c) :=
  raises_get fun _ => raises_bind (raises_wrpx h _ _ _) fun _ => raises_pure _

theorem raises_blendLane (h : AdmitsAccess C) (q : Nat) (r c : Fin 4) : Raises C (blendLane q r c) :=
  raises_get fun _ => raises_look (fun s => failsOnly_px h s .dst _ _) fun _ =>
    raises_bind (raises_wrpx h _ _ _) fun _ => raises_pure _

theorem raises_storeOp (h : AdmitsWriteBack C) : Raises C storeOp :=
  raises_look (failsOnly_rcp h) fun q =>
    raises_bind (raises_eachLane (raises_storeLane h.toAdmitsAccess q) lanes) fun _ => raises_pure _

theorem raises_blendOp (h : AdmitsWriteBack C) : Raises C blendOp :=
  raises_look (failsOnly_rcp h) fun q =>
    raises_bind (raises_eachLane (raises_blendLane h.toAdmitsAccess q) lanes) fun _ => raises_pure _

theorem raises_diffOp (h : AdmitsWriteBack C) : Raises C diffOp :=
  raises_look (failsOnly_rcp h) fun q =>
    raises_bind (raises_eachLane (raises_blendLane h.toAdmitsAccess q) lanes) fun _ => raises_modify _

/-! ## The scan -/

/-- The registers have room for `n` more candidates (R132, R133, 42_masked_accumulator.md R150). -/
structure ScanRoom (n : Nat) (d : DataRegs) : Prop where
  wacc : d.wacc.toNat + n ≤ waccMax
  ssum : d.ssum.toNat + 4080 * n ≤ 0xFFFFFFFF
  acc : ∀ r c, ((d.acc.get r).get c).toNat + 255 * n ≤ accMax

theorem scanRoom_cleared (d : DataRegs) : ScanRoom 49 (cleared d) where
  wacc := by simp [waccMax]
  ssum := by simp
  acc r c := by simp [accMax]

theorem blkFits_of_scanRoom {n : Nat} {d : DataRegs} (h : ScanRoom (n + 1) d) (b : Block Byte) :
    blkFits d.acc b = true :=
  (blkFits_iff _ _).2 fun r c => by
    have hroom := h.acc r c
    have hbyte := ((b.get r).get c).isLt
    omega

theorem scanRoom_candLeaves {n m : Nat} {d : DataRegs} (h : ScanRoom (n + 1) d) (hm : m ≤ 4080) (sum : Bool)
    (b : Block Byte) : ScanRoom n (candLeaves d sum m b) := by
  obtain ⟨hwacc, hssum, hacc⟩ := id h
  refine ⟨?wacc, ?ssum, fun r c => ?acc⟩
  case wacc =>
    have hcount : (d.wacc + 1).toNat ≤ d.wacc.toNat + 1 := toNat_ofNat_le _ _
    dsimp only [candLeaves]
    split <;> omega
  case ssum =>
    have htotal := toNat_ofNat_le 32 (d.ssum.toNat + m)
    dsimp only [candLeaves]
    split <;> omega
  case acc =>
    have hlane := blkAdd_toNat (blkFits_of_scanRoom h b) r c
    have hbyte := ((b.get r).get c).isLt
    have hroom := hacc r c
    dsimp only [candLeaves]
    split <;> omega

variable {cp : Plane} {ca : Anchor} {sum : Bool}

/-- With room left a candidate step can fail at its two reads only. -/
theorem candOp_ends (h : AdmitsAccess C) {n : Nat} {s : State} (hroom : ScanRoom (n + 1) s.dp) (dx dy : Int) :
    Ends (candOp cp ca sum dx dy) s (fun t => ScanRoom n t.dp) fun c _ => C c := by
  cases href : candBlk s .src .b 0 0 with
  | error e =>
    exact ends_of_error (op_bind_error (sadOp_ref_error href)) (failsOnly_candBlk h _ _ _ _ _ e href)
  | ok ref =>
    cases hcand : candBlk s cp ca dx dy with
    | error e =>
      exact ends_of_error (op_bind_error (sadOp_cand_error href hcand)) (failsOnly_candBlk h _ _ _ _ _ e hcand)
    | ok b =>
      have hrun := candOp_ok (sum := sum) href hcand (by linarith only [hroom.wacc])
        (by linarith only [hroom.ssum]) (blkFits_of_scanRoom hroom b)
      exact ends_of_ok hrun (scanRoom_candLeaves hroom (sad4x4_le ref b) sum b)

theorem scanOp_ends (h : AdmitsAccess C) {n m : Nat} {os : List (Int × Int)} (hm : m = n + os.length)
    {s : State} (hroom : ScanRoom m s.dp) :
    Ends (scanOp cp ca sum os) s (fun t => ScanRoom n t.dp) fun c _ => C c := by
  induction os generalizing s m with
  | nil =>
    subst hm
    exact hroom
  | cons o os ih =>
    subst hm
    exact ends_bind (candOp_ends h hroom o.1 o.2) fun _ _ ht => ih rfl ht

/-! ## Kernels -/

/-- After `CLRA` there is room for the 49 candidates of the largest scan. -/
theorem raises_clraOp_bind {g : Unit → Op β}
    (hg : ∀ s : State, ScanRoom 49 s.dp → Ends (g ()) s (fun _ => True) fun c _ => C c) :
    Raises C (clraOp >>= g) :=
  fun s => ends_bind (ends_of_ok (clraOp_eq s) (scanRoom_cleared s.dp)) fun _ t ht => hg t ht

theorem raises_kernel (h : AdmitsAccess C) {os : List (Int × Int)} (hlen : os.length ≤ 49) {writeBack : Op Unit}
    (hwb : Raises C writeBack) : Raises C (clraOp >>= fun _ => scanOp cp ca sum os >>= fun _ => writeBack) :=
  raises_clraOp_bind fun _ hroom =>
    ends_bind (scanOp_ends h (Nat.sub_add_cancel hlen).symm hroom) fun _ t _ => hwb t

theorem raises_filtOp (h : AdmitsWriteBack C) {r : Nat} (hr : r ≤ 3) : Raises C (filtOp r) :=
  raises_kernel h.toAdmitsAccess (square_length_le hr) (raises_storeOp h)

theorem raises_ofiltOp (h : AdmitsWriteBack C) {r : Nat} (hr : r ≤ 3) (cp : Plane) : Raises C (ofiltOp r cp) :=
  raises_kernel h.toAdmitsAccess (square_length_le hr) (raises_blendOp h)

theorem raises_dfiltOp (h : AdmitsWriteBack C) : Raises C dfiltOp :=
  raises_kernel h.toAdmitsAccess (square_length_le (by decide)) (raises_diffOp h)

/-- The three stages of `AFILT` scan 9, 16 and 24 of the 49 candidates (R182). -/
theorem raises_afiltOp (h : AdmitsWriteBack C) (r : Nat) : Raises C (afiltOp r) := by
  have hstore := raises_storeOp h
  refine raises_clraOp_bind fun s hroom =>
    ends_bind (scanOp_ends h.toAdmitsAccess (n := 40) (by decide) hroom) fun _ t ht => ?_
  show Ends (if _ then _ else _) t _ _
  split
  case isFalse => exact hstore t
  case isTrue =>
    refine ends_bind (scanOp_ends h.toAdmitsAccess (n := 24) (by decide) ht) fun _ u hu => ?_
    show Ends (if _ then _ else _) u _ _
    split
    case isFalse => exact hstore u
    case isTrue => exact ends_bind (scanOp_ends h.toAdmitsAccess (n := 0) (by decide) hu) fun _ v _ => hstore v

/-! ## The address generator -/

theorem raises_agstartOp (hcfg : C .cfg) (g : Geometry) (k : Nat) : Raises C (agstartOp g k) :=
  raises_get fun _ => raises_ite
    (fun _ => raises_ite (fun _ => raises_set _) fun _ => raises_set _) fun _ => raises_raise hcfg

theorem raises_agnextOp (hcfg : C .cfg) : Raises C agnextOp :=
  raises_get fun _ => raises_ite (fun _ => raises_pure _) fun _ => raises_ite
    (fun _ => raises_ite (fun _ => raises_set _) fun _ => raises_ite (fun _ => raises_set _) fun _ => raises_set _)
    fun _ => raises_raise hcfg

theorem raises_agclampOp (hcfg : C .cfg) (g : Geometry) (k : Nat) : Raises C (agclampOp g k) :=
  raises_get fun _ => raises_ite (fun _ => raises_set _) fun _ => raises_raise hcfg

/-! ## Tiles -/

theorem raises_temporalBlend (h : AdmitsWriteBack C) {r : Nat} (hr : r ≤ 3) (k : Nat) (cp : Plane) :
    Raises C (temporalBlend r k cp) :=
  raises_bind (raises_modify _) fun _ => raises_ofiltOp h hr cp

theorem raises_temporalBlends (h : AdmitsWriteBack C) {r : Nat} (hr : r ≤ 3) : Raises C (temporalBlends r) :=
  have hblend := raises_temporalBlend h hr
  have hnext : ∀ k, Raises C (nextBlend r k) := fun k => raises_get fun _ => raises_get fun _ =>
    raises_ite (fun _ => hblend k .next) fun _ => raises_pure _
  raises_get fun _ => raises_get fun _ =>
    raises_ite (fun _ => raises_bind (hblend 1 .prev) fun _ => hnext 2) fun _ => hnext 1

theorem raises_tile1Op (h : AdmitsTile C) : Raises C tile1Op := by
  have hwb := h.toAdmitsWriteBack
  have hread := hwb.toAdmitsAccess
  refine raises_get fun s => raises_ite (fun _ => raises_raise h.cfg) fun _ => ?_
  have hr : s.cfg.modeR1.toNat ≤ 3 := Nat.le_of_lt_succ s.cfg.modeR1.isLt
  refine raises_bind (raises_devlOp hread) fun _ => raises_ite (fun _ => ?temporal) fun _ => ?spatial
  case temporal =>
    exact raises_bind (raises_bsadOp hread _) fun _ => raises_bind (raises_bsadOp hread _) fun _ =>
      raises_bind (raises_modify _) fun _ => raises_bind (raises_modify _) fun _ =>
        raises_bind (raises_filtOp hwb (Nat.zero_le _)) fun _ => raises_temporalBlends hwb hr
  case spatial =>
    exact raises_bind (raises_modify _) fun _ =>
      raises_ite (fun _ => raises_afiltOp hwb _) fun _ => raises_filtOp hwb hr

theorem raises_tile2aOp (h : AdmitsTile C) : Raises C tile2aOp :=
  raises_look (failsOnly_tileEntry h) fun _ => raises_get fun _ => raises_bind (raises_modify _) fun _ =>
    raises_bind (raises_dfiltOp h.toAdmitsWriteBack) fun _ => raises_get fun _ =>
      raises_memWrite h.toAdmitsAccess _ _

theorem raises_tile2bOp (h : AdmitsTile C) : Raises C tile2bOp :=
  raises_get fun _ => raises_ite
    (fun _ => raises_look (failsOnly_tileEntry h) fun a =>
      raises_look (fun s => failsOnly_memRead h.toAdmitsAccess s a) fun _ => raises_ite
        (fun _ => raises_bind (raises_modify _) fun _ => raises_ofiltOp h.toAdmitsWriteBack (by decide) .src)
        fun _ => raises_pure _)
    fun _ => raises_raise h.cfg

/-! ## Passes -/

theorem raises_walkTiles (hcfg : C .cfg) {tile : Op Unit} (ht : Raises C tile) (n : Nat) :
    Raises C (walkTiles tile n) := by
  induction n with
  | zero => exact raises_pure _
  | succ n ih =>
    exact raises_get fun _ => raises_ite (fun _ => raises_pure _) fun _ =>
      raises_bind ht fun _ => raises_bind (raises_agnextOp hcfg) fun _ => ih

theorem raises_walkOp (hcfg : C .cfg) {tile : Op Unit} (ht : Raises C tile) (g : Geometry) (k : Nat) :
    Raises C (walkOp g k tile) :=
  raises_bind (raises_agstartOp hcfg g k) fun _ => raises_get fun _ => raises_walkTiles hcfg ht _

theorem raises_pass1Op (h : AdmitsTile C) : Raises C pass1Op :=
  raises_get fun _ => raises_ite (fun _ => raises_walkOp h.cfg (raises_tile1Op h) _ _) fun _ =>
    raises_raise h.cfg

theorem raises_pass2Open (hcfg : C .cfg) : Raises C pass2Open :=
  raises_get fun _ => raises_ite (fun _ => raises_set _) fun _ => raises_raise hcfg

theorem raises_pass2aOp (h : AdmitsTile C) : Raises C pass2aOp :=
  raises_bind (raises_pass2Open h.cfg) fun _ => raises_walkOp h.cfg (raises_tile2aOp h) _ _

theorem raises_sweepsOp (h : AdmitsTile C) (ks : List Nat) : Raises C (sweepsOp ks) := by
  induction ks with
  | nil => exact raises_pure _
  | cons k ks ih => exact raises_bind (raises_walkOp h.cfg (raises_tile2bOp h) _ k) fun _ => ih

theorem raises_pass2bOp (h : AdmitsTile C) : Raises C pass2bOp :=
  raises_bind (raises_pass2Open h.cfg) fun _ => raises_sweepsOp h _

theorem raises_runplaneOp (h : AdmitsTile C) : Raises C runplaneOp :=
  raises_get fun _ => raises_ite
    (fun _ => raises_bind (raises_pass1Op h) fun _ => raises_ite
      (fun _ => raises_bind (raises_pass2aOp h) fun _ => raises_pass2bOp h) fun _ => raises_pure _)
    fun _ => raises_raise h.cfg

end

/-! ## All thirty operations -/

/-- A cause that R252 lists for an instruction. -/
def ListedCause (i : Instr) (c : Cause) : Prop := mayRaise i (causeCode c).toNat = true

/-! The rows of the table. -/

section
variable {i : Instr}

theorem listed_cfg (h : mayRaise i 2 = true) : ListedCause i .cfg := h

theorem listed_accovf (h : mayRaise i 8 = true) : ListedCause i .accovf := h

theorem listed_access (hoob : mayRaise i 3 = true) (haovf : mayRaise i 4 = true) (hbus : mayRaise i 5 = true) :
    AdmitsAccess (ListedCause i) :=
  ⟨hoob, haovf, hbus⟩

theorem listed_writeBack (h : mayRaise i = [3, 4, 5, 6, 7].elem) : AdmitsWriteBack (ListedCause i) :=
  ⟨⟨congrFun h 3, congrFun h 4, congrFun h 5⟩, congrFun h 6, congrFun h 7⟩

theorem listed_tile (h : mayRaise i = [2, 3, 4, 5, 6, 7].elem) : AdmitsTile (ListedCause i) :=
  ⟨⟨⟨congrFun h 3, congrFun h 4, congrFun h 5⟩, congrFun h 6, congrFun h 7⟩, congrFun h 2⟩

end

theorem raises_opOf {i : Instr} (hi : i.wf = true) : Raises (ListedCause i) (opOf i) := by
  cases i with
  | nop => exact raises_pure ()
  | rbuild | dmin | thresh | clra | pack => exact raises_modify _
  | sad => exact raises_sadOp (listed_access rfl rfl rfl) _ _ _ _ _ _
  | cmp => exact raises_cmpOp (listed_accovf rfl)
  | ssadd => exact raises_ssaddOp (listed_accovf rfl)
  | bsad => exact raises_bsadOp (listed_access rfl rfl rfl) _
  | devl => exact raises_devlOp (listed_access rfl rfl rfl)
  | accrow => exact raises_accrowOp (listed_access rfl rfl rfl) (listed_accovf rfl) _ _ _ _ _
  | accblk => exact raises_accblkOp (listed_access rfl rfl rfl) (listed_accovf rfl) _ _ _ _
  | store => exact raises_storeOp (listed_writeBack rfl)
  | blend => exact raises_blendOp (listed_writeBack rfl)
  | diff => exact raises_diffOp (listed_writeBack rfl)
  | filt r =>
    have hr : r ≤ 3 := by simp only [Instr.wf, Bool.or_eq_true, beq_iff_eq] at hi; omega
    exact raises_filtOp (listed_writeBack rfl) hr
  | afilt => exact raises_afiltOp (listed_writeBack rfl) _
  | ofilt r cp =>
    have hr : r ≤ 3 := by simp only [Instr.wf, Bool.and_eq_true, Bool.or_eq_true, beq_iff_eq] at hi; omega
    exact raises_ofiltOp (listed_writeBack rfl) hr cp
  | dfilt => exact raises_dfiltOp (listed_writeBack rfl)
  | agstart => exact raises_agstartOp (listed_cfg rfl) _ _
  | agnext => exact raises_agnextOp (listed_cfg rfl)
  | agclamp => exact raises_agclampOp (listed_cfg rfl) _ _
  | tile1 => exact raises_tile1Op (listed_tile rfl)
  | tile2a => exact raises_tile2aOp (listed_tile rfl)
  | tile2b => exact raises_tile2bOp (listed_tile rfl)
  | pass1 => exact raises_pass1Op (listed_tile rfl)
  | pass2a => exact raises_pass2aOp (listed_tile rfl)
  | pass2b => exact raises_pass2bOp (listed_tile rfl)
  | runplane => exact raises_runplaneOp (listed_tile rfl)

/-- An instruction run by a unit without a fault leaves the fault record alone, or records a cause that its
pseudocode raised, under its own word. -/
theorem exec_flt {i : Instr} {s t : State} (hs : Running s) (h : exec i s = .next t) :
    (opOf i s = .ok () t ∧ t.flt = s.flt) ∨ ∃ c u, opOf i s = .error c u ∧
      t.flt = { fault := true, cause := causeCode c, finfo := encode i } := by
  obtain ⟨-, hkept⟩ := keepsCfgFlt_of_updates (keeps_opOf i) s
  obtain hop | ⟨c, u, hop, rfl⟩ := command_next ((exec_eq i s).symm.trans h)
  · rw [hop] at hkept
    exact .inl ⟨hop, hkept⟩
  · rw [hop] at hkept
    exact .inr ⟨c, u, hop, takeFault_flt ((congrArg FaultRegs.fault hkept).trans hs) c _⟩

/-- Settles O18: a fault recorded by an instruction is one that its pseudocode raised. -/
theorem operationsRaiseOnlyTheirCauses : Obligations.OperationsRaiseOnlyTheirCauses := by
  intro i s t hi hs hexec hfault
  obtain ⟨-, hkept⟩ | ⟨c, u, hop, hrecord⟩ := exec_flt hs hexec
  · rw [hkept, hs] at hfault
    cases hfault
  · have hraised := raises_opOf hi s
    rw [Ends, hop] at hraised
    rw [hrecord]
    exact ⟨hraised, rfl⟩

end Sys2Proof.Machine

/-! # A faulted unit

Taking a fault writes the fault record and nothing else (60_exceptions.md R256); with a fault recorded the port
serves reads and the two resets only (R258, R259). -/

namespace Sys2Proof.Machine

/-- Settles O11: the two branches of `takeFault`, and the table of codes. -/
theorem faultEntryWritesOnlyTheRecord : Obligations.FaultEntryWritesOnlyTheRecord :=
  ⟨fun _ c w hs => takeFault_running hs c w, fun _ c w hs => takeFault_faulted hs c w, rfl⟩

/-- `CTRL` has one offset (10_state.md R22). -/
theorem eq_ctrl_of_regAt {off : Word} (h : regAt off.toNat = some .ctrl) : off = 0x00C := by
  refine BitVec.eq_of_toNat_eq ?_
  generalize off.toNat = n at h
  unfold regAt at h
  split at h
  case h_46 => split at h <;> cases h
  all_goals cases h
  rfl

section
variable {s : State} (hs : s.flt.fault = true) {off v : Word}
include hs

theorem hostWrite_faulted (hoff : off = 0x00C → v.getLsbD 0 = false) : hostWrite off v s = .next s := by
  cases hreg : regAt off.toNat with
  | none => rw [hostWrite_undefined hreg, takeFault_faulted hs]
  | some r =>
    by_cases hctrl : r = .ctrl
    · subst hctrl
      obtain rfl := eq_ctrl_of_regAt hreg
      rw [hostWrite_ctrl, hoff rfl]
      rfl
    · exact hostWrite_ignored hreg hctrl (.inl hs)

theorem hostRead_faulted : ∃ w, hostRead off s = s.setReply (some w) := by
  cases hreg : regAt off.toNat with
  | none => exact ⟨0, by rw [hostRead_undefined hreg, takeFault_faulted hs]⟩
  | some r => exact ⟨_, hostRead_defined hreg⟩

end

theorem hostPoke_flt (a : Word) (v : Byte) (s : State) : (hostPoke a v s).flt = s.flt := by
  unfold hostPoke
  split <;> rfl

/-- Settles O8: every action but the two resets leaves the fault record of a faulted unit alone. -/
theorem faultedUnitIsFrozen : Obligations.FaultedUnitIsFrozen := by
  intro s hs
  have hs' : ∀ rest, (takeAction s rest).flt.fault = true := fun _ => hs
  have hwrite : ∀ off v rest, s.port = .write off v :: rest → (off = 0x00C → v.getLsbD 0 = false) →
      step s = .next (takeAction s rest) := fun off v rest hport hoff =>
    (step_write hport).trans (hostWrite_faulted (hs' rest) hoff)
  have hread : ∀ off rest, s.port = .read off :: rest →
      ∃ v, step s = .next ((takeAction s rest).setReply (some v)) := fun off rest hport => by
    obtain ⟨v, hv⟩ := hostRead_faulted (hs' rest) (off := off)
    exact ⟨v, (step_read hport).trans (congrArg _ hv)⟩
  have hreset : ∀ v rest, v.getLsbD 0 = true → s.port = .powerOn :: rest ∨ s.port = .write 0x00C v :: rest →
      step s = .next { State.reset with mem := s.mem, plat := s.plat, port := rest } :=
    fun v rest hv hport => step_reset hv hport
  refine ⟨hwrite, hread, fun t hstep => ?_⟩
  cases hport : s.port with
  | nil =>
    have hidle : step s = .next s := by rw [step, hport]
    cases hidle.symm.trans hstep
    exact .inl rfl
  | cons a rest =>
    cases a with
    | read off =>
      obtain ⟨v, hv⟩ := hread off rest hport
      cases hv.symm.trans hstep
      exact .inl rfl
    | write off v =>
      by_cases hoff : off = 0x00C → v.getLsbD 0 = false
      · cases (hwrite off v rest hport hoff).symm.trans hstep
        exact .inl rfl
      · obtain ⟨rfl, hv⟩ := Classical.not_imp.1 hoff
        have hv := Bool.eq_true_of_not_eq_false hv
        cases (hreset v rest hv (.inr hport)).symm.trans hstep
        exact .inr ⟨rest, .inr ⟨v, rfl, hv⟩, rfl⟩
    | poke a v =>
      have hpoke : step s = .next (hostPoke a v (takeAction s rest)) := by rw [step, hport]; rfl
      cases hpoke.symm.trans hstep
      exact .inl (hostPoke_flt a v _)
    | powerOn =>
      cases (hreset 1 rest rfl (.inl hport)).symm.trans hstep
      exact .inr ⟨rest, .inl rfl, rfl⟩

end Sys2Proof.Machine

/-! # A store that stops in the middle

The lanes before the first inaccessible one run as in a whole block (`eachLane_ok`); the write of that lane fails
as a read of it does, and ends the run (60_exceptions.md R257). -/

namespace Sys2Proof.Machine

section
variable {s : State}

/-- Whether and how a read fails does not depend on the bytes of memory. -/
theorem px_error_setMem {p : Plane} {x y : Int} {e : Cause} (h : px s p x y = .error e) (m : Memory) :
    px (s.setMem m) p x y = .error e := by
  have hdom : (s.setMem m).inMemDom = s.inMemDom := rfl
  rw [px_eq] at h ⊢
  rw [State.setMem_cfg, hdom]
  split_ifs at h ⊢ <;> exact h

/-- A write fails as a read of the same sample does (20_memory.md R76). -/
theorem wrpx_of_px_error {x y : Int} {e : Cause} (h : px s .dst x y = .error e) (v : Byte) :
    wrpx x y v s = .error e s := by
  unfold px at h
  cases haddr : sampleAddr s.cfg .dst x y with
  | error c =>
    rw [haddr] at h
    cases h
    exact look_bind_error haddr
  | ok a =>
    rw [haddr] at h
    refine (look_bind_ok haddr).trans ?_
    dsimp only [memRead] at h
    split at h
    case isTrue => cases h
    case isFalse hdom =>
      cases h
      exact if_neg hdom

theorem storeLane_error {r c : Fin 4} {e : Cause}
    (h : px s .dst (baseLane s r c).1 (baseLane s r c).2 = .error e) (q : Nat) :
    storeLane q r c s = .error e s :=
  (op_bind_ok (op_get s)).trans (op_bind_error (wrpx_of_px_error h _))

/-- A run over lanes that answer, up to one that fails. -/
theorem eachLane_append_error {f : Fin 4 → Fin 4 → Op Nat} {before after : List (Fin 4 × Fin 4)}
    {l : Fin 4 × Fin 4} {t u : State} {n : Nat} {e : Cause} (hbefore : eachLane f before s = .ok n t)
    (hl : f l.1 l.2 t = .error e u) : eachLane f (before ++ l :: after) s = .error e u := by
  induction before generalizing s n with
  | nil =>
    cases hbefore
    exact eachLane_cons_error hl
  | cons k ks ih =>
    obtain ⟨m, v, hk, hrest⟩ := op_bind_inv hbefore
    obtain ⟨_, w, hks, hpure⟩ := op_bind_inv hrest
    cases hpure
    rw [List.cons_append, eachLane_cons_ok hk, ih hks]

/-- An accessible lane's byte is the one at its address. -/
theorem laneByte_of_sampleOk {r c : Fin 4} (h : sampleOk s .dst (baseLane s r c).1 (baseLane s r c).2 = true)
    (m : Memory) : laneByte (s.setMem m) r c = (s.setMem m).byteAt (laneIndex s r c) := by
  have haddr : laneAddr (s.setMem m) r c = .ok (laneIndex s r c) := laneAddr_eq h
  rw [laneByte, haddr]

theorem lanesApart_prefix {before after : List (Fin 4 × Fin 4)} (h : lanes = before ++ after)
    (hstride : 4 ≤ s.cfg.dstStride.toNat) : LanesApart s before := by
  have hall := lanesApart_lanes hstride
  rw [LanesApart, h] at hall
  exact (List.pairwise_append.1 hall).1

end

/-- Settles O36: the run over the accessible lanes leaves what `LanesRun` says, and the next lane ends it. -/
theorem faultInTheMiddleOfAStore : Obligations.FaultInTheMiddleOfAStore := by
  intro s before after l e hvalid hcount hlanes hbefore hl
  obtain ⟨m, n, hrun, hleaves⟩ := eachLane_ok (laneWrites_storeLane s (recipFor s s.dp.wacc.toNat)) hbefore s.mem
  have hstop : storeLane (recipFor s s.dp.wacc.toNat) l.1 l.2 (s.setMem m) = .error e (s.setMem m) :=
    storeLane_error (px_error_setMem hl m) _
  have hstore : storeOp s = .error e (s.setMem m) := by
    refine (look_bind_ok (rcp_eq_recipFor hvalid hcount)).trans (op_bind_error ?_)
    rw [hlanes]
    exact eachLane_append_error hrun hstop
  refine ⟨m, exec_of_error hstore, fun hstride k hk => ?written, fun a ha => hleaves.outside a fun k hk heq => ?_⟩
  case written =>
    rw [laneByte_of_sampleOk (hbefore k hk), hleaves.written (lanesApart_prefix hlanes hstride) k hk,
      storeval_toNat]
  · exact ha k hk (heq ▸ laneAddr_eq (hbefore k hk))

end Sys2Proof.Machine

/-! # What can stop a ready plane

On a ready plane every access answers and, with the reference among the candidates, every count is positive but
that of a blend with a neighbour frame (60_exceptions.md R252). The blend of such a tile fails where the frame
agrees at the search anchor and nowhere near the base anchor; `hazardState` is a tile of that kind
(70_reset_and_hazards.md R288). -/

namespace Sys2Proof.Machine

/-! ## The parts of a tile -/

theorem ends_of_eq {x y : Op Unit} {s : State} {Q : State → Prop} {E : Cause → State → Prop} (heq : x s = y s)
    (h : Ends y s Q E) : Ends x s Q E := by
  rwa [Ends, heq]

theorem nextBlend_eq (r k : Nat) (s : State) : nextBlend r k s =
    (if s.dp.devn.toNat < s.dp.thr.toNat then temporalBlend r k .next else pure ()) s := rfl

theorem temporalBlends_eq (r : Nat) (s : State) : temporalBlends r s =
    (if s.dp.devp.toNat < s.dp.thr.toNat then temporalBlend r 1 .prev >>= fun _ => nextBlend r 2
      else nextBlend r 1) s := rfl

theorem tileFrame_measureOp : Keeps (TileFrame False) measureOp :=
  tileFrame_bind tileFrame_devlOp fun _ => tileFrame_bind (tileFrame_bsadOp _) fun _ =>
    tileFrame_bind (tileFrame_bsadOp _) fun _ =>
      tileFrame_bind (keeps_modify fun s => tileFrame_datapath s _) fun _ =>
        keeps_modify fun s => tileFrame_datapath s _

/-- The last two measurements: the threshold is that of the smallest deviation. -/
theorem dminOp_threshOp (s : State) : ∃ dev : Half, (dminOp >>= fun _ => threshOp) s =
    .ok () ((s.setDev dev).setThr (threshValue dev s.cfg.lambda s.cfg.tmax)) :=
  ⟨_, rfl⟩

/-! ## The blend of a neighbour frame -/

/-- A blend of which no candidate passes finds its count 0. -/
theorem ofilt_wzero {s : State} (hready : LaunchReady s) {r : Nat} (hroom : AnchorRoom s r) (hr : r ≤ 3)
    {p : Plane} (hp : PlaneMapped s p) (hnone : passCount s p .s (square r) = 0) :
    ∃ t, ofiltOp r p s = .error .wzero t := by
  obtain ⟨e, hscan, hleaves, -⟩ := scanOp_leaves false
    (scanReadable_of_room hroom hready.src hp fun _ => natAbs_le_of_mem_square) (square_length_le hr)
  have hzero : e.wacc = 0 := BitVec.eq_of_toNat_eq (hleaves.wacc.trans hnone)
  have hrcp : rcp { s with dp := e } = .error .wzero := rcp_error_zero hready.table hzero
  exact ⟨_, (op_bind_ok (clraOp_eq s)).trans ((op_bind_ok hscan).trans (look_bind_error hrcp))⟩

/-- A tile of `PASS1` on a ready plane with search radius `r`, every plane mapped. -/
structure NeighbourTile (r : Nat) (s : State) : Prop where
  ready : LaunchReady s
  mapped : ∀ p, PlaneMapped s p
  geom : geomOk s.cfg .p1 0 = true
  clamped : Clamped s .p1
  radius : s.cfg.modeR1.toNat = r

/-- Pseudocode that from `s` leads to such a tile again, or raises `WZERO`. -/
abbrev OnlyWzero (r : Nat) (op : Op Unit) (s : State) : Prop :=
  Ends op s (NeighbourTile r) fun c _ => c = .wzero

section
variable {s t : State} {r : Nat}

theorem neighbourTile_of_frame (h : TileFrame False s t) (hs : NeighbourTile r s) : NeighbourTile r t where
  ready := launchReady_congr (sameButScan_of_data h.toSameButData) hs.ready
  mapped p := planeMapped_congr h.cfg h.plat (hs.mapped p)
  geom := by rw [h.cfg]; exact hs.geom
  clamped := by rw [Clamped, h.cfg, h.ag]; exact hs.clamped
  radius := by rw [h.cfg]; exact hs.radius

variable (hs : NeighbourTile r s)
include hs

theorem neighbourTile_room : AnchorRoom s r := hs.radius ▸ anchorRoom_of_clamped hs.geom hs.clamped

theorem neighbourTile_radius : r = 2 ∨ r = 3 := hs.radius ▸ (geomOk_p1 hs.geom).1

theorem onlyWzero_of_ok {op : Op Unit} (hframe : Keeps (TileFrame False) op) (hrun : op s = .ok () t) :
    OnlyWzero r op s :=
  ends_of_ok hrun (neighbourTile_of_frame (tileFrame_of_ok hframe hrun) hs)

theorem onlyWzero_ofiltOp {p : Plane} (hp : p ≠ .dst) : OnlyWzero r (ofiltOp r p) s := by
  have hroom := neighbourTile_room hs
  have hr := neighbourTile_radius hs
  obtain hnone | hpass := Nat.eq_zero_or_pos (passCount s p .s (square r))
  · obtain ⟨t, hrun⟩ := ofilt_wzero hs.ready hroom (by omega) (hs.mapped p) hnone
    exact ends_of_error hrun rfl
  · obtain ⟨t, hdone, -⟩ := ofilt_ready hs.ready hroom hr hp (hs.mapped p) hpass
    exact onlyWzero_of_ok hs (tileFrame_ofiltOp r p) hdone.run

theorem onlyWzero_temporalBlend {p : Plane} (hp : p ≠ .dst) (k : Nat) : OnlyWzero r (temporalBlend r k p) s :=
  ends_bind (onlyWzero_of_ok hs (tileFrame_packOp k) rfl) fun _ _ ht => onlyWzero_ofiltOp ht hp

theorem onlyWzero_nextBlend (k : Nat) : OnlyWzero r (nextBlend r k) s := by
  refine ends_of_eq (nextBlend_eq r k s) ?_
  split
  · exact onlyWzero_temporalBlend hs (by decide) k
  · exact hs

theorem onlyWzero_temporalBlends : OnlyWzero r (temporalBlends r) s := by
  refine ends_of_eq (temporalBlends_eq r s) ?_
  split
  · exact ends_bind (onlyWzero_temporalBlend hs (by decide) 1) fun _ _ ht => onlyWzero_nextBlend ht 2
  · exact onlyWzero_nextBlend hs 1

/-! ## The tile -/

/-- The deviation of a frame that agrees with the source at the search anchor is 0. -/
theorem bsadOp_of_tile (p : Plane) : ∃ v : Half,
    bsadOp p s = .ok () (if p = .next then s.setDevn v else s.setDevp v) ∧
      (candBlk s p .s 0 0 = candBlk s .src .s 0 0 → v = 0) := by
  have hblk : ∀ q, ∃ b, candBlk s q .s 0 0 = .ok b := fun q =>
    searchBlk_of_room (neighbourTile_room hs) (hs.mapped q) (o := (0, 0)) (Nat.zero_le _) (Nat.zero_le _)
  obtain ⟨a, ha⟩ := hblk .src
  obtain ⟨b, hb⟩ := hblk p
  refine ⟨_, bsadOp_ok ha hb, fun hagree => ?_⟩
  obtain rfl : b = a := Except.ok.inj (hb.symm.trans (hagree.trans ha))
  rw [sad4x4_eq_blockDistance, blockDistance_self]
  rfl

/-- The measurements of a tile complete. -/
theorem measureOp_ok : ∃ u dev, measureOp s = .ok () u ∧ u.dp.thr = threshValue dev s.cfg.lambda s.cfg.tmax ∧
    (candBlk s .prev .s 0 0 = candBlk s .src .s 0 0 → u.dp.devp = 0) := by
  have htile : ∀ d, NeighbourTile r { s with dp := d } :=
    fun d => neighbourTile_of_frame (tileFrame_datapath s d) hs
  obtain ⟨d, hdevl⟩ :=
    devlOp_of_room (neighbourTile_room hs) hs.ready (by have := neighbourTile_radius hs; omega)
  obtain ⟨devp, hprev, hzero⟩ := bsadOp_of_tile (s := s.setDev d) (htile _) .prev
  obtain ⟨devn, hnext, -⟩ := bsadOp_of_tile (s := (s.setDev d).setDevp devp) (htile _) .next
  obtain ⟨dev, hlast⟩ := dminOp_threshOp (((s.setDev d).setDevp devp).setDevn devn)
  have hread : ∀ p, candBlk (s.setDev d) p .s 0 0 = candBlk s p .s 0 0 :=
    fun p => candBlk_congr rfl rfl rfl rfl p .s 0 0
  rw [hread, hread] at hzero
  rw [if_neg (by decide)] at hprev
  rw [if_pos rfl] at hnext
  have hrun : measureOp s = _ :=
    (op_bind_ok hdevl).trans ((op_bind_ok hprev).trans ((op_bind_ok hnext).trans hlast))
  exact ⟨_, dev, hrun, rfl, hzero⟩

theorem onlyWzero_tile1Op (ht : modeT s.cfg = true) : OnlyWzero r tile1Op s := by
  have hr := neighbourTile_radius hs
  obtain ⟨u, dev, hrun, hthr, -⟩ := measureOp_ok hs
  have hu := neighbourTile_of_frame (tileFrame_of_ok tileFrame_measureOp hrun) hs
  obtain ⟨v, hdone, -⟩ := filt_zero_ready hu.ready (neighbourTile_room hu)
    (by rw [hthr]; exact one_le_threshValue _ _ _)
  have hv := neighbourTile_of_frame (tileFrame_of_ok (tileFrame_filtOp 0) hdone.run) hu
  have hradius := hs.radius
  refine ends_of_eq (tile1Op_temporal (by omega) ht) ?_
  rw [hradius, Ends, op_bind_ok hrun, op_bind_ok (show filtOp 0 u = .ok () v from hdone.run)]
  exact onlyWzero_temporalBlends hv

end

/-! ## The plane -/

section
variable {s : State} (hready : LaunchReady s) (hmapped : ∀ p, PlaneMapped s p) (ht : modeT s.cfg = true)
  (hgeom : geomOk s.cfg .p1 0 = true)
include hready hmapped ht hgeom

theorem onlyWzero_walkSteps : WalkSteps s.cfg .p1 0 tile1Op (fun _ => SameButScan s) fun c _ => c = .wzero where
  cfg h := h.cfg
  tile {u i j} htile hu := by
    have hcfg := hu.cfg
    have htile' : NeighbourTile s.cfg.modeR1.toNat u :=
      ⟨launchReady_congr hu hready, fun p => planeMapped_congr hcfg hu.plat (hmapped p), by rwa [hcfg],
        htile.clamped, by rw [hcfg]⟩
    have hends := onlyWzero_tile1Op htile' (by rwa [hcfg])
    cases hrun : tile1Op u with
    | error c t =>
      rw [OnlyWzero, Ends, hrun] at hends
      exact ends_of_error hrun hends
    | ok a t =>
      have hframe := tileFrame_of_ok (map := False) tileFrame_tile1Op hrun
      have hscan := sameButScan_trans hu (sameButScan_of_data hframe.toSameButData)
      exact ends_of_ok hrun ⟨hframe.cfg, hframe.ag, fun _ _ => { hscan with }⟩

theorem pass1Op_ends (hplane : planeOk s.cfg (modeT s.cfg) = true) :
    Ends pass1Op s (SameButScan s) fun c _ => c = .wzero :=
  ends_of_eq (pass1Op_eq_walkOp hplane) <| ends_imp
    (walkOp_ends (onlyWzero_walkSteps hready hmapped ht hgeom) hgeom (by decide) rfl
      fun _ _ => ⟨rfl, rfl, rfl, rfl, rfl, rfl⟩)
    (fun _ => And.left) fun _ _ => id

end

theorem planeOk_false_of_planeOk {c : CfgRegs} {temporal : Bool} (h : planeOk c temporal = true) :
    planeOk c false = true := by
  simp only [planeOk, Bool.and_eq_true] at h ⊢
  exact ⟨h.1, rfl⟩

/-- In temporal mode the first pass may raise `WZERO`, and the others complete. -/
theorem planeOp_ends {s : State} (hready : LaunchReady s) (hmapped : ∀ p, PlaneMapped s p)
    (ht : modeT s.cfg = true) (hmap : modeAO s.cfg = true → WmapMapped s) (hok : runplaneOk s.cfg = true) :
    Ends (planeOp s.cfg) s (fun _ => True) fun c _ => c = .wzero := by
  obtain ⟨hplane, hgeom, hwmap⟩ := runplaneOk_iff.1 hok
  refine ends_bind (pass1Op_ends hready hmapped ht hgeom hplane) fun _ t hpass1 => ?_
  split
  case isFalse => trivial
  case isTrue hAO =>
    obtain ⟨hwok, hw, hh⟩ := hwmap hAO
    have hpass := fun {i : Instr} (hi : i = .pass2a ∨ i = .pass2b) {u} (hu : SameButScan s u) =>
      pass2_ready_again hi hu hready (hmap hAO) (planeOk_false_of_planeOk hplane) hwok hw hh
    obtain ⟨u, hpass2a, hu⟩ := hpass (.inl rfl) hpass1
    obtain ⟨v, hpass2b, -⟩ := hpass (.inr rfl) hu
    have hpass2a' : pass2aOp t = .ok () u := hpass2a
    exact ends_of_ok ((op_bind_ok hpass2a').trans hpass2b) trivial

/-! ## A tile that the blend stops -/

/-- The blend of the previous frame is tried, and no candidate of it passes. -/
theorem temporalBlends_wzero {s : State} (hs : TemporalTile s) (htried : s.dp.devp.toNat < s.dp.thr.toNat)
    (hfar : ∀ o ∈ square s.cfg.modeR1.toNat, s.dp.thr.toNat ≤ candSad s .prev .s o) :
    ∃ t, temporalBlends s.cfg.modeR1.toNat s = .error .wzero t := by
  obtain ⟨hr, -, -⟩ := geomOk_p1 hs.geom
  have hroom : AnchorRoom (s.setWw (packWord 1)) s.cfg.modeR1.toNat := anchorRoom_of_clamped hs.geom hs.clamped
  have hnone : passCount (s.setWw (packWord 1)) .prev .s (square s.cfg.modeR1.toNat) = 0 := by
    refine List.length_eq_zero_iff.2 (List.filter_eq_nil_iff.2 fun o ho hpasses => ?_)
    exact (hfar o ho).not_gt (of_decide_eq_true hpasses)
  obtain ⟨t, hblend⟩ := ofilt_wzero (launchReady_setWw hs.ready _) hroom (by omega) (hs.mapped .prev) hnone
  have hpack : packOp 1 s = .ok () (s.setWw (packWord 1)) := rfl
  rw [temporalBlends_eq, if_pos htried]
  exact ⟨t, op_bind_error ((op_bind_ok hpack).trans hblend)⟩

/-- The previous frame agrees with the source at the search anchor, so its blend is tried; near the base anchor it
holds no block like the reference, so the blend fails. With `TMAX` at most 1 the threshold is 1. -/
theorem tile1Op_wzero {s : State} (hs : TemporalTile s) (ht : modeT s.cfg = true) (htmax : s.cfg.tmax.toNat ≤ 1)
    (hagree : candBlk s .prev .s 0 0 = candBlk s .src .s 0 0)
    (hfar : ∀ o ∈ square s.cfg.modeR1.toNat, 1 ≤ candSad s .prev .s o) : ∃ t, tile1Op s = .error .wzero t := by
  obtain ⟨hr, -, -⟩ := geomOk_p1 hs.geom
  obtain ⟨u, dev, hmeasure, huthr, hudevp⟩ :=
    measureOp_ok ⟨hs.ready, hs.mapped, hs.geom, hs.clamped, rfl⟩
  have hu := tileFrame_of_ok tileFrame_measureOp hmeasure
  have hu' := temporalTile_of_frame hu hs
  have hthr : u.dp.thr.toNat = 1 := by
    rw [huthr, threshValue_toNat]
    omega
  obtain ⟨v, hdone, -⟩ := filt_zero_ready hu'.ready (anchorRoom_of_clamped hu'.geom hu'.clamped) hthr.ge
  have hv := tileFrame_frame.trans s u v hu (tileFrame_of_ok (tileFrame_filtOp 0) hdone.run)
  have hvthr : v.dp.thr.toNat = 1 := by rw [hdone.thr, hthr]
  have hvdevp : v.dp.devp.toNat = 0 := by
    rw [hdone.devp, hudevp hagree]
    rfl
  obtain ⟨t, hblends⟩ := temporalBlends_wzero (temporalTile_of_frame hv hs) (by omega) (by
    intro o ho
    rw [candSad_of_frame hs hv (by decide), hvthr]
    exact hfar o (by rwa [← hv.cfg]))
  rw [hv.cfg] at hblends
  have hfilt : filtOp 0 u = .ok () v := hdone.run
  exact ⟨t, (tile1Op_temporal (by omega) ht).trans
    ((op_bind_ok hmeasure).trans ((op_bind_ok hfilt).trans hblends))⟩

/-- An 8×8 plane in temporal mode with radius 2. The rows of the source lie at the same eight bytes, and so do
those of the previous frame; the next frame is the source. -/
def hazardCfg : CfgRegs :=
  { CfgRegs.reset with
    width := 8, height := 8, prevBase := 16, dstBase := 0x1000, dstStride := 8, modeR1 := 2, modeP := 2 }

/-- The first column of the source is 9; all else, and the previous frame, is 0. -/
def hazardMem : Memory :=
  [(0, 9), (1, 0), (2, 0), (3, 0), (4, 0), (5, 0), (6, 0), (7, 0),
   (16, 0), (17, 0), (18, 0), (19, 0), (20, 0), (21, 0), (22, 0), (23, 0)]

/-- The tile at the origin, whose search anchor `P1` moves to (2, 2). -/
def hazardState : State :=
  (((State.reset.setTable recipTable).setCfg hazardCfg).setAnchors 2 2 0 0).setMem hazardMem

theorem hazardState_mapped (p : Plane) : PlaneMapped hazardState p := by
  cases p <;> decide +kernel

theorem hazardState_ready : LaunchReady hazardState :=
  ⟨rfl, by decide +kernel, hazardState_mapped .src, hazardState_mapped .dst, rfl⟩

/-- The destination lies above all other planes. -/
theorem hazardState_apart {p : Plane} (hp : p ≠ .dst) : DstApart hazardState p := by
  intro x _ y _ u hu v _ heq
  have hplane : (planeBase hazardCfg p).toNat ≤ 16 ∧ (planeStride hazardCfg p).toNat = 0 := by
    cases p with
    | dst => exact absurd rfl hp
    | _ => decide
  have hlow : linearAddr hazardCfg p u v ≤ 16 + u := by
    rw [linearAddr, hplane.2]
    omega
  have hhigh : 0x1000 ≤ linearAddr hazardCfg .dst x y := Nat.le_add_right_of_le (Nat.le_add_right _ _)
  have hwidth : u < 8 := hu
  have haddr : linearAddr hazardCfg .dst x y = linearAddr hazardCfg p u v := heq
  omega

theorem hazardState_tile : TemporalTile hazardState :=
  ⟨hazardState_ready, hazardState_mapped, fun _ => hazardState_apart, by decide +kernel,
    ⟨rfl, rfl, rfl, rfl⟩⟩

/-- The configuration, the anchors and memory are not among the registers that the rules restrict. -/
theorem legal_setCfg_setAnchors_setMem {s : State} (h : RegistersLegal s) (c : CfgRegs) (sx sy bx bY : Word)
    (m : Memory) : RegistersLegal (((s.setCfg c).setAnchors sx sy bx bY).setMem m) := h

theorem hazardState_stops : ∃ t, tile1Op hazardState = .error .wzero t :=
  tile1Op_wzero hazardState_tile rfl (by decide +kernel) (by decide +kernel) (by decide +kernel)

/-- Settles O56: without temporal mode the plane completes, with it only the blends can fail; and the tile of
`hazardState` does. -/
theorem onlyWzeroStopsAReadyPlane : Obligations.OnlyWzeroStopsAReadyPlane := by
  refine ⟨fun s t hready hneighbours hmap hok hexec => ?plane, ?tile⟩
  case plane =>
    obtain ⟨-, hkept⟩ | ⟨c, u, hop, hrecord⟩ := exec_flt hready.running hexec
    · exact .inl hkept
    · have hrun : planeOp s.cfg s = .error c u := (runplaneOp_ok hok).symm.trans hop
      cases ht : modeT s.cfg with
      | false =>
        obtain ⟨v, hdone, -⟩ := planeOp_ready hok hready ht hmap
        cases hdone.symm.trans hrun
      | true =>
        obtain ⟨hprev, hnext⟩ := hneighbours ht
        have hmapped : ∀ p, PlaneMapped s p := fun p => by
          cases p
          exacts [hready.src, hprev, hnext, hready.dst]
        have hends := planeOp_ends hready hmapped ht hmap hok
        rw [Ends, hrun] at hends
        subst hends
        exact .inr ⟨rfl, hrecord⟩
  case tile =>
    have hs := hazardState_tile
    obtain ⟨u, hop⟩ := hazardState_stops
    obtain ⟨t, hexec⟩ := exec_total .tile1 hazardState
    have hlegal : RegistersLegal hazardState :=
      legal_setCfg_setAnchors_setMem (legal_setTable rfl legal_reset) _ _ _ _ _ _
    refine ⟨hazardState, t, hs.ready, hlegal, rfl, hs.mapped .prev, hs.mapped .next, hs.apart .src (by decide),
      hs.apart .prev (by decide), hs.apart .next (by decide), hs.geom, hs.clamped, hexec, ?_⟩
    obtain ⟨hdone, -⟩ | ⟨c, v, hstop, hrecord⟩ := exec_flt hs.ready.running hexec
    · cases hop.symm.trans hdone
    · cases hop.symm.trans hstop
      exact hrecord

end Sys2Proof.Machine
